-- ==== Sys2Proof/Word.lean ====
section
/-! DEFINITION. The word types of the I2CM block (spec 00 R7, R10): every register is a byte, the status code
is five bits, and a host access word is carried in a 16-bit container (assumption 1). -/

namespace Sys2Proof

/-- A register or data byte (R7: "register width 8 bits, every register"). -/
abbrev Byte := BitVec 8

/-- A status code in code5 form, `SR[7:3]` (R27). -/
abbrev Code5 := BitVec 5

/-- The two-byte container of a 12-bit host access word (R80): bits 11:0 hold the word, bits 15:12 are zero. -/
abbrev HostWord := BitVec 16

end Sys2Proof
end

