-- ==== Sys2Proof/HostOps.lean ====
section
/-! DEFINITION. What the host agent can do besides one access word: accesses and fetches by address (20), and the
reference driver's operations (44), as data. -/

namespace Sys2Proof

/-- The eight offsets of the register window (20 R61). -/
inductive Offset where
  | brr | sr | rsv2 | dr | cr | rsv5 | rsv6 | rsv7
  deriving DecidableEq, Repr

/-- What a host access by address does. -/
inductive AccessKind where
  | read
  | write (v : Byte)
  /-- An instruction fetch (R72). -/
  | fetch
  deriving DecidableEq, Repr

/-- A host access by address (R11, R60): it covers the bytes `addr` to `addr + more`, so `more = 0` is the one-byte
access and `more = 1` the 16-bit one. -/
structure BusAccess where
  kind : AccessKind
  addr : Nat
  more : Nat
  deriving DecidableEq, Repr

/-- The direction of a slave selection (R236, R237). -/
inductive Direction where
  | write | read
  deriving DecidableEq, Repr

/-- The driver's public surface, "exactly" these operations (44 R230). `initialise` is the spec's `initialize`. -/
inductive DriverCall where
  | initialise (cpuClockHz busClockHz : Nat)
  | issueStart
  | selectAddress (address : Nat) (direction : Direction)
  | awaitCompletion
  | checkStatus (expected : Code5)
  | sendByte (byte : Byte)
  | sendBytes (bytes : List Byte)
  | issueStop
  deriving DecidableEq, Repr

/-- One operation of the host's program. -/
inductive HostOp where
  /-- One host access word (R80). -/
  | access (w : HostWord)
  /-- An access or fetch by address (R60, R63, R72). -/
  | bus (a : BusAccess)
  /-- `poll CR.INT` (R88, R233): repeats `rd CR` until bit 7 reads 1. -/
  | poll
  /-- `rd SR` and compare SR[7:3] with `expected` (R234); `keep` says whether the boolean is returned (it is not
  in `sendByte`, R238). -/
  | check (expected : Code5) (keep : Bool)
  /-- A driver operation, a pseudo-instruction (R230). -/
  | call (c : DriverCall)
  deriving DecidableEq, Repr

end Sys2Proof
end

