-- ==== Sys2Proof/Syntax.lean ====
section
/-! DEFINITION. The instructions: one constructor per row of spec/opcode_table.json. An instruction of this block
is one host access word (30 R80); the operands are the row's fields. -/

namespace Sys2Proof

/-- A decoded host access. The V of a read and bits 3 and 1 of a CR write are ignored (R80, R83) and so are no
operands; every value of every operand below is one the encoding admits. -/
inductive Instr where
  /-- `rd BRR` (R102). -/
  | rdBrr
  /-- `rd SR` (R104). -/
  | rdSr
  /-- `rd +2` (R109). -/
  | rdRsv2
  /-- `rd DR` (R107). -/
  | rdDr
  /-- `rd CR` (R108). -/
  | rdCr
  /-- `rd +5` (R109). -/
  | rdRsv5
  /-- `rd +6` (R109). -/
  | rdRsv6
  /-- `rd +7` (R109). -/
  | rdRsv7
  /-- `wr BRR, v` (R103). -/
  | wrBrr (v : Byte)
  /-- `wr SR, v` (R105). -/
  | wrSr (v : Byte)
  /-- `wr +2, v` (R110). -/
  | wrRsv2 (v : Byte)
  /-- `wr DR, v` (R106). -/
  | wrDr (v : Byte)
  /-- `wr +5, v` (R110). -/
  | wrRsv5 (v : Byte)
  /-- `wr +6, v` (R110). -/
  | wrRsv6 (v : Byte)
  /-- `wr +7, v` (R110). -/
  | wrRsv7 (v : Byte)
  /-- CR write with EN = 0 (R137, R150). -/
  | crDisable (int ea sta sto ie : Bool)
  /-- CR write with EN = 1, INT = 0 (R148, R149). -/
  | crLatch (ea sta sto ie : Bool)
  /-- Go write with STA = 0, STO = 0 (R132). -/
  | crGoCont (ea ie : Bool)
  /-- Go write with STA = 1, STO = 0 (R132). -/
  | crGoStart (ea ie : Bool)
  /-- Go write with STA = 0, STO = 1 (R132). -/
  | crGoStop (ea ie : Bool)
  /-- Go write with STA = 1, STO = 1 (R132). -/
  | crGoStopStart (ea ie : Bool)
  deriving DecidableEq, Repr

end Sys2Proof
end

