-- ==== Sys2Proof/WellFormed.lean ====
section
/-! DEFINITION. Which terms are well formed. The types of `Instr`'s operands already admit exactly what the encoding
admits; the checks with content are the 12-bit bound of a host access word (30 R80) and the stated domains of the
driver operations (44 R232, R236). -/

namespace Sys2Proof

/-- Every `Instr` is well formed: its Bool and Byte operands are the fields of its row, at every value (R83). Said
constructor by constructor, so that a new one must be judged. -/
def instrWellFormed : Instr → Bool
  | .rdBrr | .rdSr | .rdRsv2 | .rdDr | .rdCr | .rdRsv5 | .rdRsv6 | .rdRsv7 => true
  | .wrBrr _ | .wrSr _ | .wrRsv2 _ | .wrDr _ | .wrRsv5 _ | .wrRsv6 _ | .wrRsv7 _ => true
  | .crDisable _ _ _ _ _ | .crLatch _ _ _ _ => true
  | .crGoCont _ _ | .crGoStart _ _ | .crGoStop _ _ | .crGoStopStart _ _ => true

/-- "Every word is 12 bits" (R80): the container's bits 15:12 are zero. -/
def wordWellFormed (w : HostWord) : Bool := w.extractLsb' 12 4 == 0#4

/-- The stated domain of a driver operation: R232 for `initialize` (`busClockHz ≥ 1`, `cpuClockHz ≥ 16 × busClockHz`,
divisor at most 255, "equivalently `cpuClockHz < 2064 × busClockHz`"), R236 for `selectAddress` (a 7-bit address). -/
def callWellFormed : DriverCall → Bool
  | .initialise cpu bus => decide (1 ≤ bus) && decide (16 * bus ≤ cpu) && decide (cpu < 2064 * bus)
  | .selectAddress address _ => decide (address < 0x80)
  | .issueStart | .awaitCompletion | .checkStatus _ | .sendByte _ | .sendBytes _ | .issueStop => true

end Sys2Proof
end

