-- ==== Sys2Proof/Decode.lean ====
section
/-! DEFINITION. Decoding and encoding of host access words (spec 30 R80 to R88): total on any container, rejecting by
name what is no 12-bit word; then the opcode table's rows and the encoder. -/

namespace Sys2Proof

/-- Why a container decodes to nothing. -/
inductive DecodeError where
  /-- Bits 15:12 are not all zero: no host access word (R80, "every word is 12 bits"). -/
  | notAHostAccessWord (w : HostWord)
  deriving DecidableEq, Repr

/-! ## Fields of a word (R80, R81) -/

/-- `W = w[11]`: 1 is a write. -/
def wordWrites (w : HostWord) : Bool := w.getLsbD 11

/-- `OFF = w[10:8]`. -/
def wordOffset (w : HostWord) : BitVec 3 := w.extractLsb' 8 3

/-- `V = w[7:0]`. -/
def wordByte (w : HostWord) : Byte := w.extractLsb' 0 8

/-- The word `{W, OFF, V}` (R80), in its container. -/
def accessWord (write : Bool) (off : BitVec 3) (v : Byte) : HostWord :=
  0#4 ++ BitVec.ofBool write ++ off ++ v

/-- The register an offset selects (R61, R101), by the offset's three bits. -/
def offsetOf (o : BitVec 3) : Offset :=
  match o.getLsbD 2, o.getLsbD 1, o.getLsbD 0 with
  | false, false, false => .brr   -- +0
  | false, false, true  => .sr    -- +1
  | false, true,  false => .rsv2  -- +2
  | false, true,  true  => .dr    -- +3
  | true,  false, false => .cr    -- +4
  | true,  false, true  => .rsv5  -- +5
  | true,  true,  false => .rsv6  -- +6
  | true,  true,  true  => .rsv7  -- +7

/-- The offset of a register (R61). -/
def offsetBits : Offset → BitVec 3
  | .brr => 0#3 | .sr => 1#3 | .rsv2 => 2#3 | .dr => 3#3
  | .cr => 4#3 | .rsv5 => 5#3 | .rsv6 => 6#3 | .rsv7 => 7#3

/-! ## Decoding -/

/-- The class of a CR write (R83): `e = V[2]` first, then `i = V[7]`, then `s = V[5]` and `t = V[4]`; `a = V[6]` and
`q = V[0]` are operands, V[3] and V[1] are ignored. -/
def decodeCr (v : Byte) : Instr :=
  let i := v.getLsbD 7
  let a := v.getLsbD 6
  let s := v.getLsbD 5
  let t := v.getLsbD 4
  let e := v.getLsbD 2
  let q := v.getLsbD 0
  match e, i, s, t with
  | false, _,     _,     _     => .crDisable i a s t q
  | true,  false, _,     _     => .crLatch a s t q
  | true,  true,  false, false => .crGoCont a q
  | true,  true,  true,  false => .crGoStart a q
  | true,  true,  false, true  => .crGoStop a q
  | true,  true,  true,  true  => .crGoStopStart a q

/-- The instruction an access is (R81): direction, register, and for a CR write the command. -/
def decodeAccess (write : Bool) (off : Offset) (v : Byte) : Instr :=
  match write, off with
  | false, .brr  => .rdBrr
  | false, .sr   => .rdSr
  | false, .rsv2 => .rdRsv2
  | false, .dr   => .rdDr
  | false, .cr   => .rdCr
  | false, .rsv5 => .rdRsv5
  | false, .rsv6 => .rdRsv6
  | false, .rsv7 => .rdRsv7
  | true,  .brr  => .wrBrr v
  | true,  .sr   => .wrSr v
  | true,  .rsv2 => .wrRsv2 v
  | true,  .dr   => .wrDr v
  | true,  .cr   => decodeCr v
  | true,  .rsv5 => .wrRsv5 v
  | true,  .rsv6 => .wrRsv6 v
  | true,  .rsv7 => .wrRsv7 v

/-- Decode a container (R81): each of the 4096 host access words is an instruction; anything else is refused. -/
def decode (w : HostWord) : Except DecodeError Instr :=
  if wordWellFormed w then
    .ok (decodeAccess (wordWrites w) (offsetOf (wordOffset w)) (wordByte w))
  else .error (.notAHostAccessWord w)

/-- The decoder on a table row's bits, bit 0 least significant (assumption 1): a row is one word of 12 bits, in 16. -/
def decodeTableWord (nbits w : Nat) : Option Instr :=
  if w < 2 ^ min nbits 16 then (decode (BitVec.ofNat 16 w)).toOption else none

/-! ## Encoding -/

/-- A CR byte from its fields (R82): INT EA STA STO WC EN 0 IE, bit 7 first. -/
def crByte (int ea sta sto wc en ie : Bool) : Byte :=
  BitVec.ofBool int ++ BitVec.ofBool ea ++ BitVec.ofBool sta ++ BitVec.ofBool sto ++
    BitVec.ofBool wc ++ BitVec.ofBool en ++ 0#1 ++ BitVec.ofBool ie

/-- The canonical word of an instruction (R80, R83): ignored bits are written 0 (assumption 1). -/
def encode : Instr → HostWord
  | .rdBrr  => accessWord false (offsetBits .brr) 0#8
  | .rdSr   => accessWord false (offsetBits .sr) 0#8
  | .rdRsv2 => accessWord false (offsetBits .rsv2) 0#8
  | .rdDr   => accessWord false (offsetBits .dr) 0#8
  | .rdCr   => accessWord false (offsetBits .cr) 0#8
  | .rdRsv5 => accessWord false (offsetBits .rsv5) 0#8
  | .rdRsv6 => accessWord false (offsetBits .rsv6) 0#8
  | .rdRsv7 => accessWord false (offsetBits .rsv7) 0#8
  | .wrBrr v  => accessWord true (offsetBits .brr) v
  | .wrSr v   => accessWord true (offsetBits .sr) v
  | .wrRsv2 v => accessWord true (offsetBits .rsv2) v
  | .wrDr v   => accessWord true (offsetBits .dr) v
  | .wrRsv5 v => accessWord true (offsetBits .rsv5) v
  | .wrRsv6 v => accessWord true (offsetBits .rsv6) v
  | .wrRsv7 v => accessWord true (offsetBits .rsv7) v
  | .crDisable i a s t q => accessWord true (offsetBits .cr) (crByte i a s t false false q)
  | .crLatch a s t q     => accessWord true (offsetBits .cr) (crByte false a s t false true q)
  | .crGoCont a q        => accessWord true (offsetBits .cr) (crByte true a false false false true q)
  | .crGoStart a q       => accessWord true (offsetBits .cr) (crByte true a true false false true q)
  | .crGoStop a q        => accessWord true (offsetBits .cr) (crByte true a false true false true q)
  | .crGoStopStart a q   => accessWord true (offsetBits .cr) (crByte true a true true false true q)

/-! ## The opcode table (spec/opcode_table.json) -/

/-- A row: a 12-bit word `w` is in it when `w &&& mask = bits`. -/
structure Row where
  mnemonic : String
  bits : BitVec 12
  mask : BitVec 12
  deriving DecidableEq, Repr

/-- The row of an instruction. -/
def rowOf : Instr → Row
  | .rdBrr    => ⟨"RD_BRR", 0x000#12, 0xF00#12⟩
  | .rdSr     => ⟨"RD_SR", 0x100#12, 0xF00#12⟩
  | .rdRsv2   => ⟨"RD_RSV2", 0x200#12, 0xF00#12⟩
  | .rdDr     => ⟨"RD_DR", 0x300#12, 0xF00#12⟩
  | .rdCr     => ⟨"RD_CR", 0x400#12, 0xF00#12⟩
  | .rdRsv5   => ⟨"RD_RSV5", 0x500#12, 0xF00#12⟩
  | .rdRsv6   => ⟨"RD_RSV6", 0x600#12, 0xF00#12⟩
  | .rdRsv7   => ⟨"RD_RSV7", 0x700#12, 0xF00#12⟩
  | .wrBrr _  => ⟨"WR_BRR", 0x800#12, 0xF00#12⟩
  | .wrSr _   => ⟨"WR_SR", 0x900#12, 0xF00#12⟩
  | .wrRsv2 _ => ⟨"WR_RSV2", 0xA00#12, 0xF00#12⟩
  | .wrDr _   => ⟨"WR_DR", 0xB00#12, 0xF00#12⟩
  | .wrRsv5 _ => ⟨"WR_RSV5", 0xD00#12, 0xF00#12⟩
  | .wrRsv6 _ => ⟨"WR_RSV6", 0xE00#12, 0xF00#12⟩
  | .wrRsv7 _ => ⟨"WR_RSV7", 0xF00#12, 0xF00#12⟩
  | .crDisable _ _ _ _ _ => ⟨"CR_DISABLE", 0xC00#12, 0xF04#12⟩
  | .crLatch _ _ _ _     => ⟨"CR_LATCH", 0xC04#12, 0xF84#12⟩
  | .crGoCont _ _        => ⟨"CR_GO_CONT", 0xC84#12, 0xFB4#12⟩
  | .crGoStart _ _       => ⟨"CR_GO_START", 0xCA4#12, 0xFB4#12⟩
  | .crGoStop _ _        => ⟨"CR_GO_STOP", 0xC94#12, 0xFB4#12⟩
  | .crGoStopStart _ _   => ⟨"CR_GO_STOPSTART", 0xCB4#12, 0xFB4#12⟩

/-- All 21 rows, in the table's order. -/
def opcodeTable : List Row :=
  [rowOf .rdBrr, rowOf .rdSr, rowOf .rdRsv2, rowOf .rdDr, rowOf .rdCr, rowOf .rdRsv5, rowOf .rdRsv6, rowOf .rdRsv7] ++
  [rowOf (.wrBrr 0), rowOf (.wrSr 0), rowOf (.wrRsv2 0), rowOf (.wrDr 0), rowOf (.wrRsv5 0), rowOf (.wrRsv6 0),
    rowOf (.wrRsv7 0)] ++
  [rowOf (.crDisable false false false false false), rowOf (.crLatch false false false false),
    rowOf (.crGoCont false false), rowOf (.crGoStart false false), rowOf (.crGoStop false false),
    rowOf (.crGoStopStart false false)]

/-- Whether a 12-bit word is in a row. -/
def rowFits (w : BitVec 12) (r : Row) : Bool := w &&& r.mask == r.bits

end Sys2Proof
end

