-- ==== Sys2Proof/Machine/State.lean ====
section
/-! DEFINITION. The state of the block and of the agents around it, as plain data (spec 10), the reasons a fault is
recorded, the reasons a step is refused, and the state after reset. -/

namespace Sys2Proof.Machine

/-- The sequencer phase (R31). -/
inductive Phase where
  /-- CR.EN = 0: switched off, drives neither line. -/
  | off
  /-- Enabled, not owning the bus, nothing requested. -/
  | idle
  /-- A START (`rep = false`) or repeated START is requested and not yet on the bus. -/
  | starting (rep : Bool)
  /-- A STOP is requested and not complete; `thenStart`: a START must follow it. -/
  | stopping (thenStart : Bool)
  /-- Address byte `b` is being transmitted. -/
  | sendAddr (b : Byte)
  /-- Data byte `b` is being transmitted. -/
  | sendData (b : Byte)
  /-- A data byte is being received; the block returns ACK if `ack`. -/
  | recvData (ack : Bool)
  /-- An operation completed; CR.INT = 1; the block waits for the host. -/
  | wait
  deriving DecidableEq, Repr

/-- The acknowledge bit of a transmitted byte (R13, R34). -/
inductive AckBit where
  | ack | nack
  deriving DecidableEq, Repr

/-- A bus symbol the block put on the bus (R34, R213). -/
inductive BusEvent where
  | start
  | repStart
  | addr (b : Byte) (r : AckBit)
  | txData (b : Byte) (r : AckBit)
  | rxData (v : Byte) (ack : Bool)
  | stop
  | arbLost
  | busError
  | release
  deriving DecidableEq, Repr

/-- An answer of the bus environment (R184). -/
inductive Answer where
  | granted
  | done
  | ack
  | nack
  | arbLost
  | busError
  | byte (v : Byte)
  deriving DecidableEq, Repr

/-- Whose move is next (R69, R266): the host's, the sequencer's with the environment's answer, or a reset's (R290). -/
inductive Turn where
  | host
  | bus (a : Answer)
  | rst
  deriving DecidableEq, Repr

/-- The spec's model faults (R262), kept in `State.fault`. Recording one is a NEXT state, as R100 and R263 say: no
meaning and no step answers `Outcome.fault`. A state with a fault recorded supports no claim about the hardware
(assumption 8), which makes each of these safe as long as claims ask for `fault = none`. -/
inductive Fault where
  /-- Raised by a go write that R132 gives no meaning (R147): the phase, STATUS, STA and STO it met. Safe. -/
  | undefinedCommand (phase : Phase) (status : Code5) (sta sto : Bool)
  /-- Raised by a go write during a START wait or a byte transfer (R146). Safe. -/
  | writeDuringTransfer
  /-- Raised by a host access to the window wider than one byte (R63). Safe. -/
  | wideAccess
  /-- Raised by a host instruction fetch from the window (R72). Safe. -/
  | fetchFromDevice
  /-- Raised by `initialize` or `selectAddress` outside its stated domain (R232, R236). Safe. -/
  | driverPrecondition
  deriving DecidableEq, Repr

/-- Why a step is refused. -/
inductive Refusal where
  /-- Raised by an arm of `exec` whose instruction has no meaning yet; no arm is in that case. Safe. -/
  | notModelled (mnemonic : String)
  /-- Raised by `step` when the host's next operation is a container that is no 12-bit host access word (R80): no
  instruction of the table is ever refused so. Safe: the spec has no such access. -/
  | notAHostAccessWord (w : HostWord)
  deriving DecidableEq, Repr

/-- The machine. The first group is the spec's (10 R20 to R34, 43 R210); the second is the model's own record of the
host agent, of the order of the agents and of the draws (assumptions 2, 3, 4, 14). -/
structure State where
  /-- CR.INT, completion flag (R23, R24). -/
  crInt : Bool
  /-- CR.EA, acknowledge enable (R23). -/
  crEa : Bool
  /-- CR.STA, start request (R23, R25). -/
  crSta : Bool
  /-- CR.STO, stop request (R23, R25). -/
  crSto : Bool
  /-- CR.WC, write collision (R23, R106). -/
  crWc : Bool
  /-- CR.EN, enable (R23). -/
  crEn : Bool
  /-- CR.IE, interrupt enable (R23, R35). -/
  crIe : Bool
  /-- SR[7:3], status code (R26, R27). -/
  status : Code5
  /-- SR[1:0], prescaler select (R26). -/
  ps : BitVec 2
  /-- DR, data register (R29). -/
  dr : Byte
  /-- BRR, bit-rate divisor (R30). -/
  brr : Byte
  /-- The sequencer phase (R31). -/
  phase : Phase
  /-- The sticky model fault (R33). -/
  fault : Option Fault
  /-- The bus trace, oldest event first (R34). -/
  trace : List BusEvent
  /-- The byte the last read returned: output port `rdata` (R210; assumption 6). -/
  rdata : Byte
  /-- How many unspecified bytes have been drawn (assumption 4). -/
  draws : Nat
  /-- The host's operations still to perform, in program order (R68; assumption 2). -/
  host : List HostOp
  /-- Which agent moves next; an empty list leaves the host to move (R69, R170; assumption 3). -/
  turns : List Turn
  /-- The boolean the last driver operation returned (R234 to R236; assumption 14). -/
  result : Option Bool
  deriving DecidableEq, Repr

/-- Right after power-up (R36, R290; R33, R34 for `fault` and `trace`): CR = 0x00, SR = 0xF8, BRR = 0x00, `Off`.
The spec leaves DR unspecified; 0x00 stands for it (assumption 5), and for `rdata` (assumption 6). -/
def State.reset : State where
  crInt := false
  crEa := false
  crSta := false
  crSto := false
  crWc := false
  crEn := false
  crIe := false
  status := 0x1F#5
  ps := 0#2
  dr := 0#8
  brr := 0#8
  phase := .off
  fault := none
  trace := []
  rdata := 0#8
  draws := 0
  host := []
  turns := []
  result := none

end Sys2Proof.Machine
end

