-- ==== Sys2Proof/Machine/Flags.lean ====
section
/-! DEFINITION. The status codes, the sets of codes the rules speak of, the status each outcome gives, the bytes CR and
SR read as, and the interrupt request (spec 10 R23 to R28, R35; 41 R132; 42 R171 to R178). -/

namespace Sys2Proof.Machine

/-! ## Status codes, code5 form (R27) -/

/-- A START was transmitted. -/
def stStart : Code5 := 0x01#5
/-- A repeated START was transmitted. -/
def stRepStart : Code5 := 0x02#5
/-- SLA+W transmitted, ACK received. -/
def stMtSlaAck : Code5 := 0x03#5
/-- SLA+W transmitted, NACK received. -/
def stMtSlaNack : Code5 := 0x04#5
/-- Data byte transmitted, ACK received. -/
def stMtDataAck : Code5 := 0x05#5
/-- Data byte transmitted, NACK received. -/
def stMtDataNack : Code5 := 0x06#5
/-- Arbitration lost in an address byte, a data byte or a returned NACK. -/
def stArbLost : Code5 := 0x07#5
/-- SLA+R transmitted, ACK received. -/
def stMrSlaAck : Code5 := 0x08#5
/-- SLA+R transmitted, NACK received. -/
def stMrSlaNack : Code5 := 0x09#5
/-- Data byte received, ACK returned. -/
def stMrDataAck : Code5 := 0x0A#5
/-- Data byte received, NACK returned. -/
def stMrDataNack : Code5 := 0x0B#5
/-- No relevant state: reset, idle, after a STOP, after a release. -/
def stNoInfo : Code5 := 0x1F#5
/-- An illegal START or STOP on the bus during a transfer. -/
def stBusError : Code5 := 0x00#5

/-! ## Sets of codes -/

/-- MASTER_CODES: in `Wait` the block owns the bus (R28). -/
def masterCodes : List Code5 := [0x01, 0x02, 0x03, 0x04, 0x05, 0x06, 0x08, 0x09, 0x0A, 0x0B]

/-- A START was just made: only an address may follow (R132, R135). -/
def startCodes : List Code5 := [0x01, 0x02]

/-- The block transmits: data, repeated START, STOP may follow (R132, R138). -/
def transmitCodes : List Code5 := [0x03, 0x04, 0x05, 0x06]

/-- The block receives: only another byte may follow (R132, R142). -/
def receiveCodes : List Code5 := [0x08, 0x0A]

/-- The receive is over: repeated START and STOP may follow, no byte (R132). -/
def receiveDoneCodes : List Code5 := [0x09, 0x0B]

/-! ## The status an outcome gives -/

/-- After a START or repeated START (R171). -/
def startStatus (rep : Bool) : Code5 := if rep then stRepStart else stStart

/-- After address byte `b` with acknowledge `r` (R172): its bit 0 tells SLA+W from SLA+R (R85). -/
def addrStatus (b : Byte) (r : AckBit) : Code5 :=
  match b.getLsbD 0, r with
  | false, .ack  => stMtSlaAck
  | false, .nack => stMtSlaNack
  | true,  .ack  => stMrSlaAck
  | true,  .nack => stMrSlaNack

/-- After a transmitted data byte (R174). -/
def txStatus (r : AckBit) : Code5 :=
  match r with
  | .ack => stMtDataAck
  | .nack => stMtDataNack

/-- After a received data byte (R176). -/
def rxStatus (ack : Bool) : Code5 := if ack then stMrDataAck else stMrDataNack

/-! ## What CR and SR read as -/

/-- `{INT, EA, STA, STO, WC, EN, 0, IE}` (R108). -/
def readCr (s : State) : Byte := crByte s.crInt s.crEa s.crSta s.crSto s.crWc s.crEn s.crIe

/-- `{STATUS, 0, PS}` (R104). -/
def readSr (s : State) : Byte := s.status ++ 0#1 ++ s.ps

/-- `irq = CR.EN ∧ CR.IE ∧ CR.INT` (R35). -/
def irq (s : State) : Bool := s.crEn && s.crIe && s.crInt

end Sys2Proof.Machine
end

