-- ==== Sys2Proof/Config.lean ====
section
/-! DEFINITION. What an implementation or the platform fixes and the spec leaves OPEN (00 R7, 92 "Open
parameters"), and the free values (93 part 2, "any value"). None of these has a body: no proof can see its value. Beside
them stands F_BUS, whose value R7 gives. -/

namespace Sys2Proof

/-- The route of the `irq` line in the host (R265): its line number, priority and vector. -/
structure IrqRoute where
  line : Nat
  priority : Nat
  vector : Nat
  deriving DecidableEq, Repr, Inhabited

/-- The unspecified bytes, `draw(Byte)` of R11: the n-th draw of a run is `Config.freeByte n`, under no law
(assumption 4). -/
opaque Config.freeByte : Nat → Byte

/-- `I2C_BASE`, the host address of offset 0 (R60, OPEN; assumption 10). -/
opaque Config.i2cBase : Nat

/-- One less than `F_CPU`: the spec asks only `F_CPU ≥ 1` (92; assumption 11). -/
opaque Config.fCpuLess : Nat

/-- `F_CPU`, the processor clock in Hz (R7, OPEN), at least 1. -/
def Config.fCpu : Nat := Config.fCpuLess + 1

/-- `F_BUS`, the bus clock of the reference driver in Hz (R7, not OPEN; R231). -/
def Config.fBus : Nat := 400000

/-- `SCL_DIV(BRR, PS)`, processor clocks per SCL period (R217, OPEN; assumption 11). -/
opaque Config.sclDiv : Byte → BitVec 2 → Nat

/-- `IRQ_ROUTE` (R265, OPEN; assumption 11). -/
opaque Config.irqRoute : IrqRoute

end Sys2Proof
end

