-- ==== Sys2Proof/Machine/Ops.lean ====
section
/-! DEFINITION. The named operations over the state: a byte for the host, a drawn byte, a bus event, a recorded model
fault, bus ownership, completion (which stands where another machine takes an exception, 60 R268) and the way back
from it (R269), disabling, enabling, reset. -/

namespace Sys2Proof.Machine

/-- Return byte `v` to the host (R100, R210). -/
def returnByte (v : Byte) (s : State) : State := { s with rdata := v }

/-- The next unspecified byte, `draw(Byte)` (R11; assumption 4). -/
def nextFree (s : State) : Byte := Config.freeByte s.draws

/-- Return an unspecified byte to the host, `return draw(Byte)` (R107, R109). -/
def returnFree (s : State) : State := { s with rdata := nextFree s, draws := s.draws + 1 }

/-- `DR <- draw(Byte)` (R173, R178, R290). -/
def drFree (s : State) : State := { s with dr := nextFree s, draws := s.draws + 1 }

/-- `emit(e)` (R11, R34). -/
def emit (e : BusEvent) (s : State) : State := { s with trace := s.trace ++ [e] }

/-- `raise Fault(f)` (R11, R262, R263): recorded for good; the first one stays (assumption 7). -/
def raise (f : Fault) (s : State) : State := { s with fault := s.fault.or (some f) }

/-- The block holds the bus (R28). -/
def owns (s : State) : Bool :=
  match s.phase with
  | .starting rep => rep
  | .stopping _ | .sendAddr _ | .sendData _ | .recvData _ => true
  | .wait => s.status ∈ masterCodes
  | .off | .idle => false

/-- A byte is being shifted: `phase ∈ {SendAddr(_), SendData(_), RecvData(_)}` (R107). -/
def shifting : Phase → Bool
  | .sendAddr _ | .sendData _ | .recvData _ => true
  | .off | .idle | .starting _ | .stopping _ | .wait => false

/-- A read of DR returns any byte: while a byte is shifted (R29, R107), and while a START is in progress (93 S5;
assumption 16). -/
def drUnspecified (p : Phase) : Bool :=
  match p with
  | .starting _ => true
  | .off | .idle | .stopping _ | .sendAddr _ | .sendData _ | .recvData _ | .wait => shifting p

/-- A STOP is pending: `phase = Stopping(_)` (R25, R130). -/
def stopPending : Phase → Bool
  | .stopping _ => true
  | .off | .idle | .starting _ | .sendAddr _ | .sendData _ | .recvData _ | .wait => false

/-- Completion of an operation other than a STOP (R268): STATUS written, CR.INT set, phase `Wait`. It saves nothing
and transfers no control; the rules R171 to R178 are this after their bus event. -/
def complete (code : Code5) (s : State) : State :=
  { s with status := code, crInt := true, phase := .wait }

/-- The return from `Wait` (R269, R131): the flag is cleared and the next phase entered. -/
def leaveWait (p : Phase) (s : State) : State := { s with crInt := false, phase := p }

/-- `if owns then emit(Release)` (R137, R290). -/
def releaseIfOwner (s : State) : State := if owns s then emit .release s else s

/-- `Disable()` (R137). -/
def disable (s : State) : State :=
  { releaseIfOwner s with crInt := false, crSto := false, status := stNoInfo, phase := .off }

/-- `if phase = Off then phase <- Idle` (R130, R149). -/
def enable (s : State) : State := { s with phase := if s.phase = .off then .idle else s.phase }

/-- The reset step (R290): `fault` and `trace` are kept, and so is everything outside the block (assumption 13). -/
def resetBlock (s : State) : State :=
  { drFree (releaseIfOwner s) with
    crInt := false, crEa := false, crSta := false, crSto := false, crWc := false, crEn := false, crIe := false,
    status := stNoInfo, ps := 0#2, brr := 0#8, phase := .off }

end Sys2Proof.Machine
end

