-- ==== Sys2Proof/Machine/Commands.lean ====
section
/-! DEFINITION. The command family (spec 41): a write of CR stores its fields, may disable or enable the block, and as
a go write starts what the dispatch table gives for the phase, STATUS, STA and STO. -/

namespace Sys2Proof.Machine

/-! ## Command outcomes, each after the field writes of R130 -/

/-- START from idle, the STOP bit dropped (R133). -/
def startFromIdle (s : State) : State := { s with crSto := false, phase := .starting false }

/-- STOP while not owning the bus: nothing to stop (R134). -/
def stopNotOwning (s : State) : State := { s with crSto := false }

/-- Send DR as the address byte (R135). -/
def sendAddress (s : State) : State := leaveWait (.sendAddr s.dr) s

/-- Recovery from a bus error: the lines are released, no STOP is made (R136). -/
def recoverBusError (s : State) : State :=
  { emit .release (leaveWait .idle s) with crSto := false, status := stNoInfo }

/-- Send DR as a data byte (R138). -/
def sendDataByte (s : State) : State := leaveWait (.sendData s.dr) s

/-- Repeated START (R139). -/
def repeatStart (s : State) : State := leaveWait (.starting true) s

/-- STOP; CR.STO stays 1 until it completes (R140). -/
def requestStop (s : State) : State := leaveWait (.stopping false) s

/-- STOP, then START (R141). -/
def requestStopStart (s : State) : State := leaveWait (.stopping true) s

/-- Receive a byte; the acknowledge is the CR.EA just written (R142). -/
def receiveByte (s : State) : State := leaveWait (.recvData s.crEa) s

/-- Give up after arbitration loss (R143). -/
def giveUp (s : State) : State := { leaveWait .idle s with status := stNoInfo }

/-- Retry a START after arbitration loss; STATUS stays (R144). -/
def retryStart (s : State) : State := leaveWait (.starting false) s

/-- A go write while a STOP is pending: `sta` queues a START (R145). -/
def goWhileStopping (x sta : Bool) (s : State) : State :=
  { s with phase := if sta then .stopping true else .stopping x }

/-- A go write during a START wait or a byte transfer (R146). -/
def goDuringTransfer (s : State) : State := raise .writeDuringTransfer s

/-- A go write with no meaning (R147). -/
def undefinedGo (sta sto : Bool) (s : State) : State := raise (.undefinedCommand s.phase s.status sta sto) s

/-! ## Dispatch (R132) -/

/-- Rows `Wait` 0x01, 0x02: a START was made, only an address may follow. -/
def goAfterStart (sta sto : Bool) (s : State) : State :=
  if sta || sto then undefinedGo sta sto s else sendAddress s

/-- Rows `Wait` with STA or STO, 0x03 to 0x06, 0x09, 0x0B: repeated START, STOP, or both. -/
def goEndTransfer (sta sto : Bool) (s : State) : State :=
  if sto then (if sta then requestStopStart s else requestStop s) else repeatStart s

/-- Rows `Wait` 0x03 to 0x06: the block transmits. -/
def goAsTransmitter (sta sto : Bool) (s : State) : State :=
  if sta || sto then goEndTransfer sta sto s else sendDataByte s

/-- Rows `Wait` 0x08, 0x0A: the block receives, only another byte may follow. -/
def goAsReceiver (sta sto : Bool) (s : State) : State :=
  if sta || sto then undefinedGo sta sto s else receiveByte s

/-- Rows `Wait` 0x09, 0x0B: no byte may follow. -/
def goAfterReceive (sta sto : Bool) (s : State) : State :=
  if sta || sto then goEndTransfer sta sto s else undefinedGo sta sto s

/-- Rows `Wait` 0x07: give up or retry. -/
def goAfterArbLost (sta sto : Bool) (s : State) : State :=
  if sto then undefinedGo sta sto s else if sta then retryStart s else giveUp s

/-- Rows `Wait` 0x00: STO alone recovers. -/
def goAfterBusError (sta sto : Bool) (s : State) : State :=
  if sto && !sta then recoverBusError s else undefinedGo sta sto s

/-- The rows with phase `Wait`; a STATUS that R132 lists nowhere meets the fault (assumption 9). -/
def goWait (sta sto : Bool) (s : State) : State :=
  if s.status ∈ startCodes then goAfterStart sta sto s
  else if s.status ∈ transmitCodes then goAsTransmitter sta sto s
  else if s.status ∈ receiveCodes then goAsReceiver sta sto s
  else if s.status ∈ receiveDoneCodes then goAfterReceive sta sto s
  else if s.status = stArbLost then goAfterArbLost sta sto s
  else if s.status = stBusError then goAfterBusError sta sto s
  else undefinedGo sta sto s

/-- The rows with phase `Idle`. -/
def goIdle (sta sto : Bool) (s : State) : State :=
  if sta then startFromIdle s else if sto then stopNotOwning s else undefinedGo sta sto s

/-- `Go(s, t)` (R131, R132). It is reached only after `enable`, so the phase is not `Off`; that case has no row and
meets the fault (assumption 9). -/
def go (sta sto : Bool) (s : State) : State :=
  match s.phase with
  | .off => undefinedGo sta sto s
  | .idle => goIdle sta sto s
  | .wait => goWait sta sto s
  | .stopping x => goWhileStopping x sta s
  | .starting _ | .sendAddr _ | .sendData _ | .recvData _ => goDuringTransfer s

/-! ## The write step (R130) -/

/-- The field writes: STO cannot be written 0 while a STOP is pending. -/
def writeFields (ea sta sto en ie : Bool) (s : State) : State :=
  { s with
    crEa := ea, crSta := sta, crIe := ie,
    crSto := if stopPending s.phase then true else sto,
    crEn := en }

/-- `wr CR, V` with its bits as arguments (R130), in the order of the rule. -/
def writeCr (int ea sta sto en ie : Bool) (s : State) : State :=
  let f := writeFields ea sta sto en ie s
  if en then
    if int then go sta sto (enable f) else enable f
  else if f.phase = .off then f else disable f

/-! ## Meanings -/

/-- CR_DISABLE (R137; R150 when already `Off`): V[7] has no effect. -/
def execCrDisable (int ea sta sto ie : Bool) (s : State) : Host.Outcome State Fault Refusal :=
  .next (writeCr int ea sta sto false ie s)

/-- CR_LATCH (R148; R149 from `Off`). -/
def execCrLatch (ea sta sto ie : Bool) (s : State) : Host.Outcome State Fault Refusal :=
  .next (writeCr false ea sta sto true ie s)

/-- CR_GO_CONT (R132: R135, R138, R142, R143, R145, R146, R147). -/
def execCrGoCont (ea ie : Bool) (s : State) : Host.Outcome State Fault Refusal :=
  .next (writeCr true ea false false true ie s)

/-- CR_GO_START (R132: R133, R139, R144, R145, R146, R147). -/
def execCrGoStart (ea ie : Bool) (s : State) : Host.Outcome State Fault Refusal :=
  .next (writeCr true ea true false true ie s)

/-- CR_GO_STOP (R132: R134, R136, R140, R145, R146, R147). -/
def execCrGoStop (ea ie : Bool) (s : State) : Host.Outcome State Fault Refusal :=
  .next (writeCr true ea false true true ie s)

/-- CR_GO_STOPSTART (R132: R133, R141, R145, R146, R147). -/
def execCrGoStopStart (ea ie : Bool) (s : State) : Host.Outcome State Fault Refusal :=
  .next (writeCr true ea true true true ie s)

end Sys2Proof.Machine
end

