-- ==== Sys2Proof/Machine/Operands.lean ====
section
/-! DEFINITION. The operand forms (spec 30 R85, R86; 40 R105; 44 R237; 20 R60): the address byte, the direction bit,
the prescaler field of a written byte, and the offset an address selects. -/

namespace Sys2Proof.Machine

/-- `addrByte(a, d) = {a[6:0], d}` (R85). -/
def addrByte (a : BitVec 7) (d : Bool) : Byte := a ++ BitVec.ofBool d

/-- `dirBit(write) = 0`, `dirBit(read) = 1` (R237; assumption 15). -/
def dirBit : Direction → Bool
  | .write => false
  | .read => true

/-- The byte `selectAddress` writes to DR (R236). -/
def selectByte (address : Nat) (direction : Direction) : Byte :=
  addrByte (BitVec.ofNat 7 address) (dirBit direction)

/-- `V[1:0]`, the prescaler of a byte written to SR (R105). -/
def psField (v : Byte) : BitVec 2 := v.extractLsb' 0 2

/-- `v[7:3]`, the status code of a byte read from SR (R82, R234). -/
def statusField (v : Byte) : Code5 := v.extractLsb' 3 5

/-- Whether an access touches the register window (R60): one of the bytes `addr` to `addr + more` is one of
`I2C_BASE` to `I2C_BASE + 7`. -/
def touchesWindow (a : BusAccess) : Bool :=
  decide (Config.i2cBase ≤ a.addr + a.more) && decide (a.addr < Config.i2cBase + 8)

/-- The offset of an address in the window (R11, R60). -/
def windowOffset (addr : Nat) : Offset := offsetOf (BitVec.ofNat 3 (addr - Config.i2cBase))

end Sys2Proof.Machine
end

