-- ==== Sys2Proof/Machine/RegisterAccess.lean ====
section
/-! DEFINITION. The register access family (spec 40): the reads, and the writes of BRR, SR, DR and the reserved
offsets. None of them stops: "no host access to it traps" (60 R260). -/

namespace Sys2Proof.Machine

/-! ## Reads: nothing but the byte returned changes (R67) -/

/-- `rd BRR` (R102). -/
def execRdBrr (s : State) : Host.Outcome State Fault Refusal := .next (returnByte s.brr s)

/-- `rd SR` (R104). -/
def execRdSr (s : State) : Host.Outcome State Fault Refusal := .next (returnByte (readSr s) s)

/-- `rd DR` (R107; 93 S5): any byte while a START or a byte is in progress. -/
def execRdDr (s : State) : Host.Outcome State Fault Refusal :=
  .next (if drUnspecified s.phase then returnFree s else returnByte s.dr s)

/-- `rd CR` (R108). -/
def execRdCr (s : State) : Host.Outcome State Fault Refusal := .next (returnByte (readCr s) s)

/-- `rd +2` (R109). -/
def execRdRsv2 (s : State) : Host.Outcome State Fault Refusal := .next (returnFree s)

/-- `rd +5` (R109). -/
def execRdRsv5 (s : State) : Host.Outcome State Fault Refusal := .next (returnFree s)

/-- `rd +6` (R109). -/
def execRdRsv6 (s : State) : Host.Outcome State Fault Refusal := .next (returnFree s)

/-- `rd +7` (R109). -/
def execRdRsv7 (s : State) : Host.Outcome State Fault Refusal := .next (returnFree s)

/-! ## Writes -/

/-- `wr BRR, v` (R103). -/
def execWrBrr (v : Byte) (s : State) : Host.Outcome State Fault Refusal := .next { s with brr := v }

/-- `wr SR, v` (R105): PS only. -/
def execWrSr (v : Byte) (s : State) : Host.Outcome State Fault Refusal := .next { s with ps := psField v }

/-- `wr DR, v` (R106): taken while CR.INT = 1, else a write collision. -/
def execWrDr (v : Byte) (s : State) : Host.Outcome State Fault Refusal :=
  .next (if s.crInt then { s with dr := v, crWc := false } else { s with crWc := true })

/-- A write of a reserved offset has no effect (R110). -/
def writeReserved (_v : Byte) (s : State) : State := s

/-- `wr +2, v` (R110). -/
def execWrRsv2 (v : Byte) (s : State) : Host.Outcome State Fault Refusal := .next (writeReserved v s)

/-- `wr +5, v` (R110). -/
def execWrRsv5 (v : Byte) (s : State) : Host.Outcome State Fault Refusal := .next (writeReserved v s)

/-- `wr +6, v` (R110). -/
def execWrRsv6 (v : Byte) (s : State) : Host.Outcome State Fault Refusal := .next (writeReserved v s)

/-- `wr +7, v` (R110). -/
def execWrRsv7 (v : Byte) (s : State) : Host.Outcome State Fault Refusal := .next (writeReserved v s)

end Sys2Proof.Machine
end

