-- ==== Sys2Proof/Machine/Dispatch.lean ====
section
/-! DEFINITION. The meaning of an instruction: one arm per constructor, each one call. -/

namespace Sys2Proof.Machine

open Sys2Proof

def exec (i : Instr) (s : State) : Host.Outcome State Fault Refusal :=
  match i with
  | .rdBrr => Sys2Proof.Machine.execRdBrr s
  | .rdSr => Sys2Proof.Machine.execRdSr s
  | .rdRsv2 => Sys2Proof.Machine.execRdRsv2 s
  | .rdDr => Sys2Proof.Machine.execRdDr s
  | .rdCr => Sys2Proof.Machine.execRdCr s
  | .rdRsv5 => Sys2Proof.Machine.execRdRsv5 s
  | .rdRsv6 => Sys2Proof.Machine.execRdRsv6 s
  | .rdRsv7 => Sys2Proof.Machine.execRdRsv7 s
  | .wrBrr v => Sys2Proof.Machine.execWrBrr v s
  | .wrSr v => Sys2Proof.Machine.execWrSr v s
  | .wrRsv2 v => Sys2Proof.Machine.execWrRsv2 v s
  | .wrDr v => Sys2Proof.Machine.execWrDr v s
  | .wrRsv5 v => Sys2Proof.Machine.execWrRsv5 v s
  | .wrRsv6 v => Sys2Proof.Machine.execWrRsv6 v s
  | .wrRsv7 v => Sys2Proof.Machine.execWrRsv7 v s
  | .crDisable int ea sta sto ie => Sys2Proof.Machine.execCrDisable int ea sta sto ie s
  | .crLatch ea sta sto ie => Sys2Proof.Machine.execCrLatch ea sta sto ie s
  | .crGoCont ea ie => Sys2Proof.Machine.execCrGoCont ea ie s
  | .crGoStart ea ie => Sys2Proof.Machine.execCrGoStart ea ie s
  | .crGoStop ea ie => Sys2Proof.Machine.execCrGoStop ea ie s
  | .crGoStopStart ea ie => Sys2Proof.Machine.execCrGoStopStart ea ie s

end Sys2Proof.Machine
end

