-- ==== Sys2Proof/Machine/Driver.lean ====
section
/-! DEFINITION. The reference driver (spec 44): each operation as its sequence of host accesses. It is host software;
nothing in the block knows of it. -/

namespace Sys2Proof.Machine

/-- `wr REG, v` as a host operation (R88). -/
def wrOp (off : Offset) (v : Byte) : HostOp := .access (accessWord true (offsetBits off) v)

/-- `d = (cpuClockHz div (8 × busClockHz)) − 2` on naturals (R232). -/
def divisor (cpuClockHz busClockHz : Nat) : Nat := cpuClockHz / (8 * busClockHz) - 2

/-- `sendByte` (R238): the check's boolean is discarded. -/
def expandSendByte (byte : Byte) : List HostOp :=
  [wrOp .dr byte, wrOp .cr 0x84#8, .poll, .check stMtDataAck false]

/-- The expansions (R231, R233 to R236, R238 to R240). -/
def expand : DriverCall → List HostOp
  | .initialise cpu bus => [wrOp .brr (BitVec.ofNat 8 (divisor cpu bus)), wrOp .sr 0x00#8]
  | .issueStart => [wrOp .cr 0xA4#8, .poll, .check stStart true]
  | .selectAddress address direction =>
    [wrOp .dr (selectByte address direction), wrOp .cr 0x84#8, .poll, .check stMtSlaAck true]
  | .awaitCompletion => [.poll]
  | .checkStatus expected => [.check expected true]
  | .sendByte byte => expandSendByte byte
  | .sendBytes bytes => bytes.flatMap expandSendByte
  | .issueStop => [wrOp .cr 0x94#8]

/-- `initialize` as the source's build calls it (R231): at F_CPU, with F_BUS. -/
def sourceInitialise : DriverCall := .initialise Config.fCpu Config.fBus

/-- A driver call put in front of the host's program (assumption 14); outside its domain it is the model fault
`DriverPrecondition` and performs none of its accesses (R262). -/
def callDriver (c : DriverCall) (s : State) : State :=
  if callWellFormed c then { s with host := expand c ++ s.host, result := none }
  else raise .driverPrecondition { s with result := none }

/-- The end of one `rd CR` of a poll: again unless bit 7 of the byte read is 1 (R233). -/
def pollAgain (s : State) : State :=
  if s.rdata.getLsbD 7 then s else { s with host := .poll :: s.host }

/-- The end of the `rd SR` of a check: the boolean `v[7:3] = expected` (R234), returned if `keep`. -/
def checkRead (expected : Code5) (keep : Bool) (s : State) : State :=
  if keep then { s with result := some (statusField s.rdata == expected) } else s

end Sys2Proof.Machine
end

