-- ==== Sys2Proof/Machine/HostAgent.lean ====
section
/-! DEFINITION. The host agent (spec 00 R9, 20, 40 R100): it performs its next operation, one access at a time. -/

namespace Sys2Proof.Machine

/-- Go on with `f` after an access that answered a next state. -/
def afterNext (o : Host.Outcome State Fault Refusal) (f : State → State) : Host.Outcome State Fault Refusal :=
  match o with
  | .next s => .next (f s)
  | .fault r => .fault r
  | .refused r => .refused r

/-- Perform one host access word (R80): decode it and run it. -/
def accessByWord (w : HostWord) (s : State) : Host.Outcome State Fault Refusal :=
  match decode w with
  | .ok i => exec i s
  | .error _ => .refused (.notAHostAccessWord w)

/-- Perform an access by address (R60): outside the window the block is not addressed (R62); a fetch is the model
fault of R72, a wide access that of R63, and a one-byte access is the access at its offset (assumption 10). -/
def accessByAddress (a : BusAccess) (s : State) : Host.Outcome State Fault Refusal :=
  if touchesWindow a then
    match a.kind with
    | .fetch => .next (raise .fetchFromDevice s)
    | .read =>
      if a.more = 0 then exec (decodeAccess false (windowOffset a.addr) 0#8) s else .next (raise .wideAccess s)
    | .write v =>
      if a.more = 0 then exec (decodeAccess true (windowOffset a.addr) v) s else .next (raise .wideAccess s)
  else .next s

/-- Perform one operation of the host's program. -/
def hostOp (op : HostOp) (s : State) : Host.Outcome State Fault Refusal :=
  match op with
  | .access w => accessByWord w s
  | .bus a => accessByAddress a s
  | .poll => afterNext (exec .rdCr s) pollAgain
  | .check expected keep => afterNext (exec .rdSr s) (checkRead expected keep)
  | .call c => .next (callDriver c s)

/-- The host's turn: its next operation, or nothing if its program is over. -/
def hostTurn (s : State) : Host.Outcome State Fault Refusal :=
  match s.host with
  | [] => .next s
  | op :: rest => hostOp op { s with host := rest }

end Sys2Proof.Machine
end

