-- ==== Sys2Proof/Machine/Sequencer.lean ====
section
/-! DEFINITION. The sequencer (spec 42): it finishes the operation in progress with one answer of the bus environment.
Each completion emits its event, and then `complete` writes STATUS and sets CR.INT (R267, R268); a STOP sets no flag. -/

namespace Sys2Proof.Machine

/-- START completion (R171). -/
def startDone (rep : Bool) (s : State) : State :=
  complete (startStatus rep) (emit (if rep then .repStart else .start) s)

/-- Address byte sent (R172). -/
def addrDone (b : Byte) (r : AckBit) (s : State) : State :=
  complete (addrStatus b r) { emit (.addr b r) s with dr := b }

/-- Data byte sent (R174). -/
def txDone (b : Byte) (r : AckBit) (s : State) : State :=
  complete (txStatus r) { emit (.txData b r) s with dr := b }

/-- Data byte received (R176). -/
def rxDone (ack : Bool) (v : Byte) (s : State) : State :=
  complete (rxStatus ack) { emit (.rxData v ack) s with dr := v }

/-- Arbitration lost (R173, R175, R177): DR is unspecified. -/
def arbLostDone (s : State) : State := complete stArbLost (drFree (emit .arbLost s))

/-- Bus error (R178): DR is unspecified. -/
def busErrorDone (s : State) : State := complete stBusError (drFree (emit .busError s))

/-- STOP completion (R179): CR.INT is not changed. -/
def stopDone (thenStart : Bool) (s : State) : State :=
  { emit .stop s with
    crSto := false, status := stNoInfo, phase := if thenStart then .starting false else .idle }

/-- One sequencer step (R170): none where the phase does not admit the answer (R184) or has no step (R180). -/
def seqStep (a : Answer) (s : State) : Option State :=
  match s.phase with
  | .starting rep =>
    match a with
    | .granted => some (startDone rep s)
    | .done | .ack | .nack | .arbLost | .busError | .byte _ => none
  | .stopping thenStart =>
    match a with
    | .done => some (stopDone thenStart s)
    | .granted | .ack | .nack | .arbLost | .busError | .byte _ => none
  | .sendAddr b =>
    match a with
    | .ack => some (addrDone b .ack s)
    | .nack => some (addrDone b .nack s)
    | .arbLost => some (arbLostDone s)
    | .busError => some (busErrorDone s)
    | .granted | .done | .byte _ => none
  | .sendData b =>
    match a with
    | .ack => some (txDone b .ack s)
    | .nack => some (txDone b .nack s)
    | .arbLost => some (arbLostDone s)
    | .busError => some (busErrorDone s)
    | .granted | .done | .byte _ => none
  | .recvData ack =>
    match a with
    | .byte v => some (rxDone ack v s)
    | .arbLost => if ack then none else some (arbLostDone s)
    | .busError => some (busErrorDone s)
    | .granted | .done | .ack | .nack => none
  | .off | .idle | .wait => none

/-- The block at an environment answer: an answer the phase does not admit is no step (R184; assumption 3). -/
def busTurn (a : Answer) (s : State) : State := (seqStep a s).getD s

end Sys2Proof.Machine
end

