-- ==== Sys2Proof/Machine/Step.lean ====
section
/-! DEFINITION. One step of the whole machine: the agent whose turn it is moves (spec 00 R9, 20 R69, 60 R266). -/

namespace Sys2Proof.Machine

/-- The next turn is the host's, the sequencer's with an answer, or a reset's; with no turn listed the bus environment
withholds its answer and the host moves (R170; assumption 3). -/
def step (s : State) : Host.Outcome State Fault Refusal :=
  match s.turns with
  | [] => hostTurn s
  | .host :: rest => hostTurn { s with turns := rest }
  | .bus a :: rest => .next (busTurn a { s with turns := rest })
  | .rst :: rest => .next (resetBlock { s with turns := rest })

/-- `s` with the host access word `w` as the host's next operation and the host's as the next turn (assumption 2):
the program is loaded into the host from outside. `nbits` tells how many bits the row has; the rest are zero. -/
def State.withFetchWord (s : State) (_nbits w : Nat) : State :=
  { s with host := .access (BitVec.ofNat 16 w) :: s.host, turns := .host :: s.turns }

end Sys2Proof.Machine
end

