-- ==== Sys2Proof/Machine/Lines.lean ====
section
/-! DEFINITION. The outputs of the block as functions of its state (spec 43; 60 R265): what it does with SDA and SCL
between symbols and within a byte, the interrupt line, and the bit rate. No step reads any of them (R210, R217). -/

namespace Sys2Proof.Machine

/-- What the block does with a line (R211). -/
inductive LineDrive where
  /-- `oe = 0`: the line is released. -/
  | released
  /-- `oe = 1`: the line is pulled low. -/
  | pulledLow
  /-- Driven as the symbol in progress needs (R213), below the level of the model (R8). -/
  | bySymbol
  /-- The spec leaves it unspecified (assumption 12). -/
  | unspecified
  deriving DecidableEq, Repr

/-- `sda_oe` (R211). -/
def sdaDrive (s : State) : LineDrive :=
  match s.phase with
  | .off | .idle => .released
  | .starting rep => if rep then .bySymbol else .released
  | .wait => if owns s then .unspecified else .released
  | .stopping _ | .sendAddr _ | .sendData _ | .recvData _ => .bySymbol

/-- `scl_oe` (R211). -/
def sclDrive (s : State) : LineDrive :=
  match s.phase with
  | .off | .idle => .released
  | .starting rep => if rep then .bySymbol else .released
  | .wait => if owns s then .pulledLow else .released
  | .stopping _ | .sendAddr _ | .sendData _ | .recvData _ => .bySymbol

/-! ## A byte on the bus (R212, R213) -/

/-- A byte's bits in the order of the bus, most significant first (R212). -/
def bitsMsbFirst (b : Byte) : List Bool :=
  [b.getLsbD 7, b.getLsbD 6, b.getLsbD 5, b.getLsbD 4, b.getLsbD 3, b.getLsbD 2, b.getLsbD 1, b.getLsbD 0]

/-- The level of SDA in the ninth clock period: ACK is low (R212). -/
def ackLevel : AckBit → Bool
  | .ack => false
  | .nack => true

/-- SDA as sampled in each clock period of a byte event, true for high (R213); no period for the other events. -/
def sdaLevels : BusEvent → List Bool
  | .addr b r => bitsMsbFirst b ++ [ackLevel r]
  | .txData b r => bitsMsbFirst b ++ [ackLevel r]
  | .rxData v ack => bitsMsbFirst v ++ [!ack]
  | .start | .repStart | .stop | .arbLost | .busError | .release => []

/-- Whether the block itself pulls SDA low in each of those periods (R213): as a transmitter it pulls for a 0 bit and
releases the ninth; as a receiver it releases eight and pulls the ninth for ACK. -/
def sdaPulls : BusEvent → List Bool
  | .addr b _ => (bitsMsbFirst b).map (! ·) ++ [false]
  | .txData b _ => (bitsMsbFirst b).map (! ·) ++ [false]
  | .rxData _ ack => List.replicate 8 false ++ [ack]
  | .start | .repStart | .stop | .arbLost | .busError | .release => []

/-- SDA's successive levels in each high period of SCL (R212): a START falls and a STOP rises while SCL is high, and a
bit of a byte stays as it is. -/
def sclHighPeriods : BusEvent → List (List Bool)
  | .start | .repStart => [[true, false]]
  | .stop => [[false, true]]
  | .addr b r => (sdaLevels (.addr b r)).map ([·])
  | .txData b r => (sdaLevels (.txData b r)).map ([·])
  | .rxData v ack => (sdaLevels (.rxData v ack)).map ([·])
  | .arbLost | .busError | .release => []

/-! ## Interrupt line (R264, R265) -/

/-- The level of host interrupt line `line`: `irq` on the line IRQ_ROUTE names (assumption 11). -/
def hostInterrupt (line : Nat) (s : State) : Bool := irq s && line == Config.irqRoute.line

/-! ## Bit rate (R217, R218) -/

/-- `P(PS)`: 1, 4, 16, 64 (R218). -/
def prescalerFactor (ps : BitVec 2) : Nat := 4 ^ ps.toNat

/-- The default of SCL_DIV, `8 × (BRR + 2) × P(PS)` (R217). -/
def sclDivDefault (brr : Byte) (ps : BitVec 2) : Nat := 8 * (brr.toNat + 2) * prescalerFactor ps

/-- `f_SCL` in Hz for a clock and a divider (R217). -/
def bitRateOf (fCpu sclDiv : Nat) : Rat := (fCpu : Rat) / (sclDiv : Rat)

/-- The bit rate of the block (R217); nothing in the machine reads it. -/
def bitRate (s : State) : Rat := bitRateOf Config.fCpu (Config.sclDiv s.brr s.ps)

end Sys2Proof.Machine
end

