-- ==== Sys2Proof/Safety.lean ====
section
/-! DEFINITION. What claims speak of: a run with no model fault (spec 60 R262, R263), the invariants of the phase and the
registers (10 R32, 42 R181), and the two-wire protocol that the bus trace obeys (42 R183, 43 R213). -/

namespace Sys2Proof.Machine

/-- A state about which a claim on the hardware may be made: no model fault is recorded (R263; assumption 8). -/
abbrev Safe (s : State) : Prop := s.fault = none

/-! ## Registers and phase -/

/-- R32: CR.INT = 1 exactly when `Wait`; CR.EN = 0 exactly when `Off`; CR.STO = 1 whenever `Stopping(_)`. -/
abbrev PhaseFlags (s : State) : Prop :=
  (s.crInt = true ↔ s.phase = .wait) ∧ (s.crEn = false ↔ s.phase = .off) ∧
    (stopPending s.phase = true → s.crSto = true)

/-- The STATUS values that go with each phase (R132, R181, R182). -/
def statusFitsPhase (p : Phase) (st : Code5) : Bool :=
  match p with
  | .off | .idle => st == 0x1F
  | .starting rep => if rep then st ∈ transmitCodes ++ receiveDoneCodes else st == 0x1F || st == 0x07
  | .stopping _ => st ∈ transmitCodes ++ receiveDoneCodes
  | .sendAddr _ => st ∈ startCodes
  | .sendData _ => st ∈ transmitCodes
  | .recvData _ => st ∈ receiveCodes
  | .wait => st ∈ [0x00#5, 0x01, 0x02, 0x03, 0x04, 0x05, 0x06, 0x07, 0x08, 0x09, 0x0A, 0x0B]

/-- STATUS is one of the values the phase allows. -/
abbrev StatusFits (s : State) : Prop := statusFitsPhase s.phase s.status = true

/-- The byte being transmitted is the one in DR (R106, R135, R138): while it is shifted, DR writes collide. -/
abbrev ShiftedIsDr (s : State) : Prop :=
  match s.phase with
  | .sendAddr b => s.dr = b
  | .sendData b => s.dr = b
  | _ => True

/-! ## Answers and commands, as the spec tables them -/

/-- The answers each phase admits (R184). -/
def answerAdmitted : Phase → Answer → Bool
  | .starting _, a => a == .granted
  | .stopping _, a => a == .done
  | .sendAddr _, a => a ∈ [Answer.ack, .nack, .arbLost, .busError]
  | .sendData _, a => a ∈ [Answer.ack, .nack, .arbLost, .busError]
  | .recvData true, a => match a with | .byte _ => true | a => a == .busError
  | .recvData false, a => match a with | .byte _ => true | a => a ∈ [Answer.arbLost, .busError]
  | .off, _ | .idle, _ | .wait, _ => false

/-- The four go classes with EA = `ea` and IE = `ie`, each with the STA and STO it writes (R83). -/
def goClasses (ea ie : Bool) : List (Instr × Bool × Bool) :=
  [(.crGoCont ea ie, false, false), (.crGoStart ea ie, true, false),
    (.crGoStop ea ie, false, true), (.crGoStopStart ea ie, true, true)]

/-- Whether an instruction is a CR write (R130). -/
def isCommand : Instr → Bool
  | .crDisable _ _ _ _ _ | .crLatch _ _ _ _ | .crGoCont _ _ | .crGoStart _ _ | .crGoStop _ _ | .crGoStopStart _ _ => true
  | .rdBrr | .rdSr | .rdRsv2 | .rdDr | .rdCr | .rdRsv5 | .rdRsv6 | .rdRsv7 => false
  | .wrBrr _ | .wrSr _ | .wrRsv2 _ | .wrDr _ | .wrRsv5 _ | .wrRsv6 _ | .wrRsv7 _ => false

/-- Whether an instruction is a go write (R131). -/
def isGo : Instr → Bool
  | .crGoCont _ _ | .crGoStart _ _ | .crGoStop _ _ | .crGoStopStart _ _ => true
  | .crDisable _ _ _ _ _ | .crLatch _ _ _ _ => false
  | .rdBrr | .rdSr | .rdRsv2 | .rdDr | .rdCr | .rdRsv5 | .rdRsv6 | .rdRsv7 => false
  | .wrBrr _ | .wrSr _ | .wrRsv2 _ | .wrDr _ | .wrRsv5 _ | .wrRsv6 _ | .wrRsv7 _ => false

/-- The combinations of phase, STATUS, STA and STO that R132 marks `UndefinedCommand`. -/
def undefinedRow (p : Phase) (st : Code5) (sta sto : Bool) : Bool :=
  match p with
  | .idle => st == 0x1F && !sta && !sto
  | .wait =>
    st ∈ [0x01#5, 0x02, 0x08, 0x0A] && (sta || sto) ||
    st ∈ [0x09#5, 0x0B] && !sta && !sto ||
    st == 0x07 && sto ||
    st == 0x00 && (sta || !sto)
  | .off | .starting _ | .stopping _ | .sendAddr _ | .sendData _ | .recvData _ => false

/-! ## Whose move is next -/

/-- The host moves next, and `ts` are the turns left after its move: its turn is listed, or no turn is (assumption 3). -/
abbrev HostNext (s : State) (ts : List Turn) : Prop :=
  s.turns = [] ∧ ts = [] ∨ s.turns = .host :: ts

/-- Whether a host operation reads BRR or SR, by word, by address or as a check (R102, R104, R234). -/
def readsClock : HostOp → Bool
  | .access w => (decode w).toOption == some .rdBrr || (decode w).toOption == some .rdSr
  | .bus a => a.kind == .read && a.more == 0 && (a.addr == Config.i2cBase || a.addr == Config.i2cBase + 1)
  | .check _ _ => true
  | .poll | .call _ => false

/-! ## The bus protocol -/

/-- Where a transaction stands after a sequence of bus events. -/
inductive BusMode where
  /-- The block does not hold the bus. -/
  | free
  /-- A START or repeated START was made: an address must follow. -/
  | addressing
  /-- The block is the transmitter of the transaction. -/
  | transmitting
  /-- The block is the receiver and has asked for a byte. -/
  | receiving
  /-- The receive is over: only a repeated START, a STOP or a release may follow. -/
  | received
  /-- An illegal START or STOP was seen (R213). -/
  | broken
  deriving DecidableEq, Repr

/-- The mode after one event, none where the two-wire protocol does not allow the event (R183, R213). -/
def busNext (m : BusMode) (e : BusEvent) : Option BusMode :=
  match m, e with
  | .free, .start | .broken, .start => some .addressing
  | .broken, .release => some .free
  | .addressing, .addr b r => some (if b.getLsbD 0 then (match r with | .ack => .receiving | .nack => .received) else .transmitting)
  | .transmitting, .txData _ _ => some .transmitting
  | .receiving, .rxData _ ack => some (if ack then .receiving else .received)
  | .transmitting, .repStart | .received, .repStart => some .addressing
  | .transmitting, .stop | .received, .stop => some .free
  | .addressing, .arbLost | .transmitting, .arbLost | .receiving, .arbLost => some .free
  | .addressing, .busError | .transmitting, .busError | .receiving, .busError => some .broken
  | .addressing, .release | .transmitting, .release | .receiving, .release | .received, .release => some .free
  | _, _ => none

/-- The mode after a trace that starts with the bus not held. -/
def busModeAfter (trace : List BusEvent) : Option BusMode :=
  trace.foldl (fun m e => m.bind (busNext · e)) (some .free)

/-- Which modes go with a phase and STATUS. -/
def modeFits (p : Phase) (st : Code5) (m : BusMode) : Bool :=
  match p with
  | .off | .idle => m == .free || m == .broken
  | .starting rep => if rep then m == .transmitting || m == .received else m == .free || m == .broken
  | .stopping _ => m == .transmitting || m == .received
  | .sendAddr _ => m == .addressing
  | .sendData _ => m == .transmitting
  | .recvData _ => m == .receiving
  | .wait =>
    if st ∈ startCodes then m == .addressing
    else if st ∈ transmitCodes then m == .transmitting
    else if st ∈ receiveCodes then m == .receiving
    else if st ∈ receiveDoneCodes then m == .received
    else if st = stArbLost then m == .free
    else if st = stBusError then m == .broken
    else false

/-- The whole trace is a legal sequence of two-wire symbols, and it has come to a mode that fits the phase. -/
abbrev BusLegal (s : State) : Prop :=
  ∃ m, busModeAfter s.trace = some m ∧ modeFits s.phase s.status m = true

/-! ## Independence of the clock configuration -/

/-- Two states that may differ only in the clock configuration BRR, SR.PS and in the byte last read (R30, R297). -/
abbrev SameButClock (s t : State) : Prop :=
  t = { s with brr := t.brr, ps := t.ps, rdata := t.rdata }

end Sys2Proof.Machine
end

