-- ==== Sys2Proof/Certificates/Slice0/Obligations.lean ====
section
/-! DEFINITION. The statements for the provers, from the spec's numbered rules. Where a next state is given as an update
of `s`, every field not named is unchanged: the equation is also the frame. -/

open Sys2Proof Sys2Proof.Machine

/-! ## Encoding (spec 30) -/

/-- R80, R83: the canonical word of an instruction decodes to it, whatever its operands. -/
def Obligations.DecodeOfEncodeIsTheInstruction : Prop :=
  ∀ i : Instr, decode (encode i) = .ok i

/-- R81: every one of the 4096 words decodes, and lies in exactly one row of the table, that of its instruction. -/
def Obligations.EveryWordIsInExactlyOneRow : Prop :=
  ∀ w : BitVec 12, ∃ i, decode (w.setWidth 16) = .ok i ∧ opcodeTable.filter (rowFits w) = [rowOf i]

/-- R80, R83, R87: the V of a read, and V[3] and V[1] of a CR write, do not matter. -/
def Obligations.IgnoredBitsDoNotMatter : Prop :=
  ∀ w w' : HostWord, wordWellFormed w = true → wordWellFormed w' = true →
    (w.getLsbD 11 = false ∧ w >>> 8 = w' >>> 8) ∨ (w >>> 8 = 0x00C#16 ∧ w &&& 0xFF5#16 = w' &&& 0xFF5#16) →
    decode w = decode w'

/-- Words of 95 L2.1, written out there, decode to the rows given there. -/
def Obligations.SpecWordsDecodeToTheirRows : Prop :=
  decode 0x000#16 = .ok .rdBrr ∧ decode 0x1FF#16 = .ok .rdSr ∧ decode 0x2AB#16 = .ok .rdRsv2 ∧
  decode 0x803#16 = .ok (.wrBrr 0x03) ∧ decode 0x9FF#16 = .ok (.wrSr 0xFF) ∧ decode 0xBA0#16 = .ok (.wrDr 0xA0) ∧
  decode 0xCA4#16 = .ok (.crGoStart false false) ∧ decode 0xC84#16 = .ok (.crGoCont false false) ∧
  decode 0xCC4#16 = .ok (.crGoCont true false) ∧ decode 0xC94#16 = .ok (.crGoStop false false) ∧
  decode 0xCFF#16 = .ok (.crGoStopStart true true) ∧
  decode 0xCFB#16 = .ok (.crDisable true true true true true) ∧
  decode 0xC7F#16 = .ok (.crLatch true true true true) ∧ decode 0xD00#16 = .ok (.wrRsv5 0x00)

/-- R80 (assumption 1): a container with a bit above bit 11 set is no host access word, and is refused by name. -/
def Obligations.WiderContainersAreRefused : Prop :=
  ∀ (s : State) (ts : List Turn) (w : HostWord) (rest : List HostOp), HostNext s ts → s.host = .access w :: rest →
    4096 ≤ w.toNat → step s = .refused (.notAHostAccessWord w)

/-- R80, R100 (assumptions 2, 3): when the host's next operation is a word that decodes to `i`, its turn is `exec i`,
with the operation and the turn taken off the lists. -/
def Obligations.StepRunsTheDecodedInstruction : Prop :=
  ∀ (s : State) (ts : List Turn) (w : HostWord) (i : Instr) (rest : List HostOp), HostNext s ts →
    s.host = .access w :: rest → decode w = .ok i → step s = exec i { s with host := rest, turns := ts }

/-! ## Reset (spec 10 R36, 70 R290) -/

/-- R36, R33, R34: what power-up leaves; DR is not claimed, the spec leaves it unspecified. -/
def Obligations.ResetStateHoldsTheStatedValues : Prop :=
  readCr State.reset = 0x00#8 ∧ readSr State.reset = 0xF8#8 ∧ State.reset.brr = 0x00#8 ∧ State.reset.phase = .off ∧
  irq State.reset = false ∧ State.reset.fault = none ∧ State.reset.trace = []

/-- R290: the reset step, in every state. The model's choice: what is outside the block is kept (assumption 13), and the
form of the unspecified DR (assumption 4). -/
def Obligations.ResetTurnResetsTheBlock : Prop :=
  ∀ (s : State) (ts : List Turn), s.turns = .rst :: ts →
    ∃ t, step s = .next t ∧
      t = { s with
        turns := ts
        crInt := false, crEa := false, crSta := false, crSto := false, crWc := false, crEn := false, crIe := false
        status := 0x1F#5, ps := 0#2, brr := 0x00#8, dr := Config.freeByte s.draws, draws := s.draws + 1
        phase := .off, trace := if owns s then s.trace ++ [.release] else s.trace } ∧
      readCr t = 0x00#8 ∧ readSr t = 0xF8#8 ∧ irq t = false ∧ sdaDrive t = .released ∧ sclDrive t = .released

/-! ## Register access (spec 40) -/

/-- R102, R103: BRR reads as last written, 0x00 after reset. -/
def Obligations.BrrReadsAsWritten : Prop :=
  (∀ s : State, exec .rdBrr s = .next { s with rdata := s.brr }) ∧
  (∀ (s : State) (v : Byte), exec (.wrBrr v) s = .next { s with brr := v }) ∧
  State.reset.brr = 0x00#8

/-- R104, R105: SR reads `{STATUS, 0, PS}`; a write changes PS only, so V and `V & 0x03` do the same. -/
def Obligations.SrWriteChangesOnlyThePrescaler : Prop :=
  (∀ s : State, exec .rdSr s = .next { s with rdata := s.status ++ 0#1 ++ s.ps }) ∧
  (∀ (s : State) (v : Byte), exec (.wrSr v) s = .next { s with ps := v.extractLsb' 0 2 } ∧
    exec (.wrSr v) s = exec (.wrSr (v &&& 0x03#8)) s)

/-- R106: a DR write is taken while CR.INT = 1 and clears WC; otherwise it is a collision and sets WC. -/
def Obligations.DrWriteIsTakenOnlyWhileFlagIsSet : Prop :=
  ∀ (s : State) (v : Byte),
    (s.crInt = true → exec (.wrDr v) s = .next { s with dr := v, crWc := false }) ∧
    (s.crInt = false → exec (.wrDr v) s = .next { s with crWc := true })

/-- R29, R107, 93 S5: a DR read returns DR, but any byte while a START or a byte is in progress (the model's form of any
byte: assumption 4; a START counting as in progress: assumption 16). -/
def Obligations.DrReadIsUnspecifiedWhileShifting : Prop :=
  ∀ s : State,
    ((∃ r, s.phase = .starting r) ∨ (∃ b, s.phase = .sendAddr b ∨ s.phase = .sendData b) ∨ (∃ a, s.phase = .recvData a) →
      exec .rdDr s = .next { s with rdata := Config.freeByte s.draws, draws := s.draws + 1 }) ∧
    (s.phase = .off ∨ s.phase = .idle ∨ s.phase = .wait ∨ (∃ x, s.phase = .stopping x) →
      exec .rdDr s = .next { s with rdata := s.dr })

/-- R108: CR reads `{INT, EA, STA, STO, WC, EN, 0, IE}`, and reading does not clear INT. -/
def Obligations.CrReadReturnsItsFields : Prop :=
  ∀ s : State, ∃ v : Byte, exec .rdCr s = .next { s with rdata := v } ∧
    v.getLsbD 7 = s.crInt ∧ v.getLsbD 6 = s.crEa ∧ v.getLsbD 5 = s.crSta ∧ v.getLsbD 4 = s.crSto ∧
    v.getLsbD 3 = s.crWc ∧ v.getLsbD 2 = s.crEn ∧ v.getLsbD 1 = false ∧ v.getLsbD 0 = s.crIe

/-- R109, R110: reserved offsets read as any byte, drawn afresh (the model's form of it: assumption 4), and ignore writes. -/
def Obligations.ReservedOffsetsReadFreeAndIgnoreWrites : Prop :=
  (∀ s : State, ∀ i ∈ [Instr.rdRsv2, .rdRsv5, .rdRsv6, .rdRsv7],
    exec i s = .next { s with rdata := Config.freeByte s.draws, draws := s.draws + 1 }) ∧
  (∀ (s : State) (v : Byte), ∀ i ∈ [Instr.wrRsv2 v, .wrRsv5 v, .wrRsv6 v, .wrRsv7 v], exec i s = .next s)

/-- R100, R260: every access, at every offset, with every value and in every state, is performed. -/
def Obligations.EveryAccessIsPerformed : Prop :=
  ∀ (i : Instr) (s : State), ∃ t, exec i s = .next t

/-- R67: what an access that is no CR write can change; a DR write also changes DR or CR.WC, a read the byte returned. -/
def Obligations.PlainAccessesLeaveTheSequencerAlone : Prop :=
  ∀ (i : Instr) (s t : State), isCommand i = false → exec i s = .next t →
    t.phase = s.phase ∧ t.status = s.status ∧ t.trace = s.trace ∧ t.fault = s.fault ∧
    t.crInt = s.crInt ∧ t.crEa = s.crEa ∧ t.crSta = s.crSta ∧ t.crSto = s.crSto ∧ t.crEn = s.crEn ∧ t.crIe = s.crIe ∧
    t.host = s.host ∧ t.turns = s.turns ∧ t.result = s.result ∧
    ((∀ v, i ≠ .wrDr v) → t.dr = s.dr ∧ t.crWc = s.crWc) ∧
    ((∀ v, i ≠ .wrBrr v) → t.brr = s.brr) ∧ ((∀ v, i ≠ .wrSr v) → t.ps = s.ps)

/-! ## Commands (spec 41) -/

/-- R133: from `Idle`, a go with STA = 1 requests a START and drops STO. -/
def Obligations.StartFromIdleRequestsStart : Prop :=
  ∀ (s : State) (ea ie : Bool), s.phase = .idle →
    ∀ i ∈ [Instr.crGoStart ea ie, .crGoStopStart ea ie],
      exec i s = .next { s with
        crEa := ea, crSta := true, crSto := false, crEn := true, crIe := ie, phase := .starting false }

/-- R134: in `Idle` a go with STO alone clears STO and does nothing else. -/
def Obligations.StopInIdleOnlyClearsSto : Prop :=
  ∀ (s : State) (ea ie : Bool), s.phase = .idle →
    exec (.crGoStop ea ie) s =
      .next { s with crEa := ea, crSta := false, crSto := false, crEn := true, crIe := ie }

/-- R135: after a START, CONT sends DR as the address byte. -/
def Obligations.ContAfterStartSendsAddress : Prop :=
  ∀ (s : State) (ea ie : Bool), s.phase = .wait → s.status ∈ [0x01#5, 0x02#5] →
    exec (.crGoCont ea ie) s = .next { s with
      crInt := false, crEa := ea, crSta := false, crSto := false, crEn := true, crIe := ie, phase := .sendAddr s.dr }

/-- R136: after a bus error, STO alone releases the lines and goes to `Idle`. -/
def Obligations.StopAfterBusErrorRecovers : Prop :=
  ∀ (s : State) (ea ie : Bool), s.phase = .wait → s.status = 0x00#5 →
    exec (.crGoStop ea ie) s = .next { s with
      crInt := false, crEa := ea, crSta := false, crSto := false, crEn := true, crIe := ie
      status := 0x1F#5, trace := s.trace ++ [.release], phase := .idle }

/-- R137: a CR write with EN = 0, in any phase but `Off`. -/
def Obligations.DisableSwitchesOff : Prop :=
  ∀ (s : State) (int ea sta sto ie : Bool), s.phase ≠ .off →
    exec (.crDisable int ea sta sto ie) s = .next { s with
      crInt := false, crEa := ea, crSta := sta, crSto := false, crEn := false, crIe := ie
      status := 0x1F#5, trace := if owns s then s.trace ++ [.release] else s.trace, phase := .off }

/-- R138: as transmitter, CONT sends DR as data, after a NACK too. -/
def Obligations.ContAsTransmitterSendsData : Prop :=
  ∀ (s : State) (ea ie : Bool), s.phase = .wait → s.status ∈ [0x03#5, 0x04#5, 0x05#5, 0x06#5] →
    exec (.crGoCont ea ie) s = .next { s with
      crInt := false, crEa := ea, crSta := false, crSto := false, crEn := true, crIe := ie, phase := .sendData s.dr }

/-- R139, R140, R141: while owning the bus as transmitter or after the last received byte, STA alone makes a repeated
START, STO alone requests a STOP (CR.STO stays 1), and both request a STOP and then a START. -/
def Obligations.StartAndStopWhileOwning : Prop :=
  ∀ (s : State) (ea ie : Bool), s.phase = .wait → s.status ∈ [0x03#5, 0x04#5, 0x05#5, 0x06#5, 0x09#5, 0x0B#5] →
    exec (.crGoStart ea ie) s = .next { s with
      crInt := false, crEa := ea, crSta := true, crSto := false, crEn := true, crIe := ie, phase := .starting true } ∧
    exec (.crGoStop ea ie) s = .next { s with
      crInt := false, crEa := ea, crSta := false, crSto := true, crEn := true, crIe := ie, phase := .stopping false } ∧
    exec (.crGoStopStart ea ie) s = .next { s with
      crInt := false, crEa := ea, crSta := true, crSto := true, crEn := true, crIe := ie, phase := .stopping true }

/-- R142: as receiver, CONT receives a byte; the acknowledge is the EA of this write. -/
def Obligations.ContAsReceiverReceives : Prop :=
  ∀ (s : State) (ea ie : Bool), s.phase = .wait → s.status ∈ [0x08#5, 0x0A#5] →
    exec (.crGoCont ea ie) s = .next { s with
      crInt := false, crEa := ea, crSta := false, crSto := false, crEn := true, crIe := ie, phase := .recvData ea }

/-- R143, R144: after arbitration loss CONT gives up and STA retries, STATUS staying 0x07. -/
def Obligations.ArbitrationLossIsLeftByContOrStart : Prop :=
  ∀ (s : State) (ea ie : Bool), s.phase = .wait → s.status = 0x07#5 →
    exec (.crGoCont ea ie) s = .next { s with
      crInt := false, crEa := ea, crSta := false, crSto := false, crEn := true, crIe := ie
      status := 0x1F#5, phase := .idle } ∧
    exec (.crGoStart ea ie) s = .next { s with
      crInt := false, crEa := ea, crSta := true, crSto := false, crEn := true, crIe := ie, phase := .starting false }

/-- R145: a go while a STOP is pending queues a START if STA = 1 and cannot cancel the STOP. -/
def Obligations.GoWhileStoppingQueuesStart : Prop :=
  ∀ (s : State) (x ea ie : Bool) (i : Instr) (sta sto : Bool), s.phase = .stopping x → (i, sta, sto) ∈ goClasses ea ie →
    exec i s = .next { s with
      crEa := ea, crSta := sta, crSto := true, crEn := true, crIe := ie
      phase := .stopping (if sta then true else x) }

/-- R146: a go during a START wait or a byte transfer is the model fault, with the fields written. -/
def Obligations.GoDuringTransferIsFault : Prop :=
  ∀ (s : State) (ea ie : Bool) (i : Instr) (sta sto : Bool),
    (∃ r, s.phase = .starting r) ∨ (∃ b, s.phase = .sendAddr b ∨ s.phase = .sendData b) ∨ (∃ a, s.phase = .recvData a) →
    (i, sta, sto) ∈ goClasses ea ie → s.fault = none →
    exec i s = .next { s with
      crEa := ea, crSta := sta, crSto := sto, crEn := true, crIe := ie, fault := some .writeDuringTransfer }

/-- R147: a go the dispatch table gives no meaning is the model fault, with the fields written. -/
def Obligations.UndefinedGoIsFault : Prop :=
  ∀ (s : State) (ea ie : Bool) (i : Instr) (sta sto : Bool),
    undefinedRow s.phase s.status sta sto = true → (i, sta, sto) ∈ goClasses ea ie → s.fault = none →
    exec i s = .next { s with
      crEa := ea, crSta := sta, crSto := sto, crEn := true, crIe := ie
      fault := some (.undefinedCommand s.phase s.status sta sto) }

/-- R148: a CR write with INT = 0 and EN = 1 stores its fields, takes `Off` to `Idle`, and starts nothing. -/
def Obligations.LatchOnlyStoresFields : Prop :=
  ∀ (s : State) (ea sta sto ie : Bool),
    (∀ x, s.phase = .stopping x → exec (.crLatch ea sta sto ie) s = .next { s with
      crEa := ea, crSta := sta, crSto := true, crEn := true, crIe := ie }) ∧
    (s.phase = .off → exec (.crLatch ea sta sto ie) s = .next { s with
      crEa := ea, crSta := sta, crSto := sto, crEn := true, crIe := ie, phase := .idle }) ∧
    (s.phase ≠ .off → (∀ x, s.phase ≠ .stopping x) → exec (.crLatch ea sta sto ie) s = .next { s with
      crEa := ea, crSta := sta, crSto := sto, crEn := true, crIe := ie })

/-- R149, R150: in `Off`, a CR write with EN = 1 enters `Idle` and then does what it does there; one with EN = 0 only
stores its fields. -/
def Obligations.WriteWhileOffEnablesOrStores : Prop :=
  ∀ s : State, s.phase = .off →
    (∀ (i : Instr) (ea ie sta sto : Bool),
      (i, sta, sto) ∈ (.crLatch ea sta sto ie, sta, sto) :: goClasses ea ie →
        exec i s = exec i { s with phase := .idle }) ∧
    (∀ int ea sta sto ie : Bool, exec (.crDisable int ea sta sto ie) s = .next { s with
      crEa := ea, crSta := sta, crSto := sto, crEn := false, crIe := ie })

/-- R130: every CR write stores EA, STA, IE and EN, leaves STO 1 while a STOP stays pending, and touches none of WC, DR,
BRR, PS, the byte last read, and what is outside the block. -/
def Obligations.CommandsStoreFieldsAndKeepTheRest : Prop :=
  ∀ (i : Instr) (s t : State), isCommand i = true → exec i s = .next t →
    (∀ int ea sta sto ie, i = .crDisable int ea sta sto ie → t.crEa = ea ∧ t.crSta = sta ∧ t.crIe = ie ∧ t.crEn = false) ∧
    (∀ ea sta sto ie, (i, sta, sto) ∈ (.crLatch ea sta sto ie, sta, sto) :: goClasses ea ie →
      t.crEa = ea ∧ t.crSta = sta ∧ t.crIe = ie ∧ t.crEn = true) ∧
    ((∃ x, t.phase = .stopping x) → (∃ x, s.phase = .stopping x) → t.crSto = true) ∧
    t.crWc = s.crWc ∧ t.dr = s.dr ∧ t.brr = s.brr ∧ t.ps = s.ps ∧ t.rdata = s.rdata ∧ t.draws = s.draws ∧
    t.host = s.host ∧ t.turns = s.turns ∧ t.result = s.result

/-- R24: CR.INT is set only by the sequencer, by an operation other than a STOP, and cleared only by a go write, a disable
or a reset. -/
def Obligations.FlagIsSetBySequencerAndClearedByHost : Prop :=
  (∀ (i : Instr) (s t : State), exec i s = .next t →
    (t.crInt = true → s.crInt = true) ∧
    (s.crInt = true → t.crInt = false → isGo i = true ∨ ∃ int ea sta sto ie, i = .crDisable int ea sta sto ie)) ∧
  (∀ (a : Answer) (s t : State), seqStep a s = some t →
    (a = .done → t.crInt = s.crInt) ∧ (a ≠ .done → t.crInt = true)) ∧
  (∀ s t : State, step s = .next t → s.crInt = false → t.crInt = true → ∃ a ts, s.turns = .bus a :: ts ∧ a ≠ .done) ∧
  (∀ s t : State, step s = .next t → s.crInt = true → t.crInt = false →
    (∃ ts, s.turns = .rst :: ts) ∨
    ∃ (ts : List Turn) (op : HostOp) (rest : List HostOp) (i : Instr), HostNext s ts ∧ s.host = op :: rest ∧
      (isGo i = true ∨ ∃ int ea sta sto ie, i = .crDisable int ea sta sto ie) ∧ (∀ u, hostOp op u = exec i u) ∧
      exec i { s with host := rest, turns := ts } = .next t)

/-! ## Sequencer (spec 42); an answer of the bus environment is the next turn (assumption 3) -/

/-- R171: START completion. -/
def Obligations.GrantedStartCompletes : Prop :=
  ∀ (s : State) (ts : List Turn) (rep : Bool), s.turns = .bus .granted :: ts → s.phase = .starting rep →
    step s = .next { s with
      turns := ts, trace := s.trace ++ [if rep then .repStart else .start]
      status := if rep then 0x02#5 else 0x01#5, crInt := true, phase := .wait }

/-- R172: address byte sent; bit 0 of the byte tells SLA+W from SLA+R. -/
def Obligations.AddressByteCompletes : Prop :=
  ∀ (s : State) (ts : List Turn) (b : Byte), s.phase = .sendAddr b →
    (s.turns = .bus .ack :: ts → step s = .next { s with
      turns := ts, trace := s.trace ++ [.addr b .ack]
      status := if b.getLsbD 0 then 0x08#5 else 0x03#5, dr := b, crInt := true, phase := .wait }) ∧
    (s.turns = .bus .nack :: ts → step s = .next { s with
      turns := ts, trace := s.trace ++ [.addr b .nack]
      status := if b.getLsbD 0 then 0x09#5 else 0x04#5, dr := b, crInt := true, phase := .wait })

/-- R173, R175, R177: arbitration lost, DR unspecified (the model's form of it: assumption 4); in `RecvData(true)` the
answer is not admitted and nothing happens (assumption 3). -/
def Obligations.ArbitrationLossCompletes : Prop :=
  ∀ (s : State) (ts : List Turn), s.turns = .bus .arbLost :: ts →
    ((∃ b, s.phase = .sendAddr b ∨ s.phase = .sendData b) ∨ s.phase = .recvData false →
      ∃ t, step s = .next t ∧ owns t = false ∧ t = { s with
        turns := ts, trace := s.trace ++ [.arbLost], status := 0x07#5
        dr := Config.freeByte s.draws, draws := s.draws + 1, crInt := true, phase := .wait }) ∧
    (s.phase = .recvData true → step s = .next { s with turns := ts })

/-- R174: data byte sent. -/
def Obligations.DataByteCompletes : Prop :=
  ∀ (s : State) (ts : List Turn) (b : Byte), s.phase = .sendData b →
    (s.turns = .bus .ack :: ts → step s = .next { s with
      turns := ts, trace := s.trace ++ [.txData b .ack], status := 0x05#5, dr := b, crInt := true, phase := .wait }) ∧
    (s.turns = .bus .nack :: ts → step s = .next { s with
      turns := ts, trace := s.trace ++ [.txData b .nack], status := 0x06#5, dr := b, crInt := true, phase := .wait })

/-- R176: data byte received. -/
def Obligations.ReceivedByteCompletes : Prop :=
  ∀ (s : State) (ts : List Turn) (ack : Bool) (v : Byte), s.turns = .bus (.byte v) :: ts → s.phase = .recvData ack →
    step s = .next { s with
      turns := ts, trace := s.trace ++ [.rxData v ack], dr := v
      status := if ack then 0x0A#5 else 0x0B#5, crInt := true, phase := .wait }

/-- R178: bus error during a byte, DR unspecified (the model's form of it: assumption 4). Of the go writes the table
defines only STO alone there: it alone leaves `Wait`, and it alone clears INT. -/
def Obligations.BusErrorCompletes : Prop :=
  ∀ (s : State) (ts : List Turn), s.turns = .bus .busError :: ts →
    (∃ b, s.phase = .sendAddr b ∨ s.phase = .sendData b) ∨ (∃ a, s.phase = .recvData a) →
      ∃ t, step s = .next t ∧
        (∀ sta sto, undefinedRow t.phase t.status sta sto = false ↔ sta = false ∧ sto = true) ∧
        (∀ (ea ie : Bool) (i : Instr) (sta sto : Bool) (u : State), (i, sta, sto) ∈ goClasses ea ie → exec i t = .next u →
          (u.phase ≠ .wait ↔ sta = false ∧ sto = true) ∧ (u.crInt = false ↔ sta = false ∧ sto = true)) ∧ t = { s with
        turns := ts, trace := s.trace ++ [.busError], status := 0x00#5
        dr := Config.freeByte s.draws, draws := s.draws + 1, crInt := true, phase := .wait }

/-- R179: STOP completion; CR.INT is not changed. -/
def Obligations.StopCompletesWithoutFlag : Prop :=
  ∀ (s : State) (ts : List Turn) (thenStart : Bool), s.turns = .bus .done :: ts → s.phase = .stopping thenStart →
    step s = .next { s with
      turns := ts, trace := s.trace ++ [.stop], crSto := false, status := 0x1F#5
      phase := if thenStart then .starting false else .idle }

/-- R184, R170, R180: the sequencer steps exactly on the answers the phase admits; the model's choice (assumption 3): any
other answer changes nothing, and with no answer and no host operation nothing happens. -/
def Obligations.OnlyAdmittedAnswersStep : Prop :=
  (∀ (s : State) (a : Answer), (seqStep a s).isSome = answerAdmitted s.phase a) ∧
  (∀ (s : State) (a : Answer) (ts : List Turn), s.turns = .bus a :: ts → answerAdmitted s.phase a = false →
    step s = .next { s with turns := ts }) ∧
  (∀ s : State, s.turns = [] → s.host = [] → step s = .next s)

/-- 42, 10 R25: a sequencer step changes none of EA, STA, WC, EN, IE, PS, BRR, the fault, and what is outside the block;
it changes DR only by a byte, and CR.STO only by a STOP. -/
def Obligations.SequencerStepKeepsTheRest : Prop :=
  ∀ (a : Answer) (s t : State), seqStep a s = some t →
    t.crEa = s.crEa ∧ t.crSta = s.crSta ∧ t.crWc = s.crWc ∧ t.crEn = s.crEn ∧ t.crIe = s.crIe ∧ t.ps = s.ps ∧
    t.brr = s.brr ∧ t.fault = s.fault ∧ t.rdata = s.rdata ∧ t.host = s.host ∧ t.turns = s.turns ∧ t.result = s.result ∧
    (a = .granted ∨ a = .done → t.dr = s.dr ∧ t.draws = s.draws) ∧ (a ≠ .done → t.crSto = s.crSto)

/-! ## Invariants -/

/-- Every invariant below holds at reset. -/
def Obligations.ResetMeetsTheInvariants : Prop :=
  PhaseFlags State.reset ∧ StatusFits State.reset ∧ ShiftedIsDr State.reset ∧ BusLegal State.reset

/-- R32: INT = 1 exactly in `Wait`, EN = 0 exactly in `Off`, STO = 1 in `Stopping(_)`: every step keeps it; and in `Wait`
the block owns the bus exactly when STATUS is a master code. -/
def Obligations.StepKeepsPhaseFlags : Prop :=
  (∀ s t : State, PhaseFlags s → step s = .next t → PhaseFlags t) ∧
  (∀ s : State, s.phase = .wait →
    (owns s = true ↔ s.status ∈ [0x01#5, 0x02, 0x03, 0x04, 0x05, 0x06, 0x08, 0x09, 0x0A, 0x0B]))

/-- R181, R182: STATUS stays one of the values that go with the phase. -/
def Obligations.StepKeepsStatusInItsTable : Prop :=
  ∀ s t : State, StatusFits s → step s = .next t → StatusFits t

/-- R106, R135, R138: while a byte is transmitted DR holds it, since DR writes collide then. -/
def Obligations.StepKeepsShiftedByteInDr : Prop :=
  ∀ s t : State, PhaseFlags s → ShiftedIsDr s → step s = .next t → ShiftedIsDr t

/-- R183, R213, R214: the bus trace stays a legal sequence of two-wire symbols in a mode that fits the phase, whatever the
host does and the environment answers. -/
def Obligations.StepKeepsTheBusProtocol : Prop :=
  ∀ s t : State, BusLegal s → step s = .next t → BusLegal t

/-- R34, R214: a step adds at most one event to the trace, and an access adds none but the `Release` of a disable or of a
bus-error recovery. -/
def Obligations.TraceOnlyGrows : Prop :=
  (∀ s t : State, step s = .next t → t.trace = s.trace ∨ ∃ e, t.trace = s.trace ++ [e]) ∧
  (∀ (i : Instr) (s t : State), exec i s = .next t →
    t.trace = s.trace ∨
    t.trace = s.trace ++ [.release] ∧
      ((∃ int ea sta sto ie, i = .crDisable int ea sta sto ie) ∧ owns s = true ∨
       (∃ ea ie, i = .crGoStop ea ie) ∧ s.phase = .wait ∧ s.status = 0x00#5))

/-- R33, R263: no step, a reset included, clears `fault`, and every access is still performed in a state that has it. -/
def Obligations.FaultIsNeverCleared : Prop :=
  ∀ s : State, s.fault ≠ none →
    (∀ t, step s = .next t → t.fault ≠ none) ∧ (∀ i : Instr, ∃ t, exec i s = .next t)

/-- Assumption 7, the model's choice: a later fault does not replace the first. -/
def Obligations.FirstFaultIsKept : Prop :=
  ∀ (s t : State) (f : Fault), s.fault = some f → step s = .next t → t.fault = some f

/-- R28: the block holds the bus exactly in these phases, and after arbitration loss, a bus error or a release not. -/
def Obligations.OwnershipFollowsPhaseAndStatus : Prop :=
  ∀ s : State, owns s = true ↔
    s.phase = .starting true ∨ (∃ x, s.phase = .stopping x) ∨ (∃ b, s.phase = .sendAddr b ∨ s.phase = .sendData b) ∨
    (∃ a, s.phase = .recvData a) ∨
    (s.phase = .wait ∧ s.status ∈ [0x01#5, 0x02, 0x03, 0x04, 0x05, 0x06, 0x08, 0x09, 0x0A, 0x0B])

/-- R30, R297: the clock configuration is observed by nothing but a read of BRR or SR: two states that differ only in it
and in the byte last read step to states that differ only in these; and if the byte last read was the same, it stays the
same unless the host's move is a read of BRR or SR, or a check, which reads SR. -/
def Obligations.ClockConfigurationIsNotObserved : Prop :=
  (∀ s₁ s₂ : State, SameButClock s₁ s₂ →
    match step s₁, step s₂ with
    | .next t₁, .next t₂ => SameButClock t₁ t₂
    | .refused r₁, .refused r₂ => r₁ = r₂
    | .fault _, _ => False
    | .next _, _ => False
    | .refused _, _ => False) ∧
  (∀ s₁ s₂ t₁ t₂ : State, SameButClock s₁ s₂ → s₁.rdata = s₂.rdata → step s₁ = .next t₁ → step s₂ = .next t₂ →
    t₁.rdata = t₂.rdata ∨
    ∃ ts op rest, HostNext s₁ ts ∧ s₁.host = op :: rest ∧ readsClock op = true)

/-! ## Accesses by address (spec 20) -/

/-- R60, R61, R101: a one-byte access at I2C_BASE + k is the access of the register at offset k. -/
def Obligations.ByteAccessSelectsItsOffset : Prop :=
  ∀ (s : State) (ts : List Turn) (rest : List HostOp) (k : Nat) (v : Byte) (rd wr : Instr), HostNext s ts →
    (k, rd, wr) ∈ [(0, .rdBrr, .wrBrr v), (1, .rdSr, .wrSr v), (2, .rdRsv2, .wrRsv2 v), (3, .rdDr, .wrDr v),
      (5, .rdRsv5, .wrRsv5 v), (6, .rdRsv6, .wrRsv6 v), (7, .rdRsv7, .wrRsv7 v), (4, .rdCr, decodeCr v)] →
    (s.host = .bus ⟨.read, Config.i2cBase + k, 0⟩ :: rest → step s = exec rd { s with host := rest, turns := ts }) ∧
    (s.host = .bus ⟨.write v, Config.i2cBase + k, 0⟩ :: rest → step s = exec wr { s with host := rest, turns := ts })

/-- R63, R72, R262: a wider access that touches the window, and a fetch from it, are the model faults and change nothing
else; an access outside the window does nothing to the block (the model's choice, assumption 10). -/
def Obligations.WideAccessAndFetchAreFaults : Prop :=
  ∀ (s : State) (ts : List Turn) (rest : List HostOp) (a : BusAccess), HostNext s ts → s.host = .bus a :: rest →
    s.fault = none →
    (a.addr < Config.i2cBase + 8 → Config.i2cBase ≤ a.addr + a.more →
      (a.kind = .fetch → step s = .next { s with host := rest, turns := ts, fault := some .fetchFromDevice }) ∧
      (a.kind ≠ .fetch → 1 ≤ a.more → step s = .next { s with host := rest, turns := ts, fault := some .wideAccess })) ∧
    (a.addr + a.more < Config.i2cBase ∨ Config.i2cBase + 8 ≤ a.addr →
      step s = .next { s with host := rest, turns := ts })

/-! ## Outputs (spec 43, 60) -/

/-- R211: the lines between symbols, by phase; `bySymbol` and `unspecified` stand for the table's own words. R212, R213:
within a byte, the level of SDA and what the block pulls low in each of the nine clock periods, most significant bit first,
and SDA while SCL is high. The form of both is the model's (assumption 12). -/
def Obligations.LinesFollowThePhase : Prop :=
  ∀ s : State,
    (s.phase = .off ∨ s.phase = .idle ∨ s.phase = .starting false → sdaDrive s = .released ∧ sclDrive s = .released) ∧
    (s.phase = .wait → owns s = true → sdaDrive s = .unspecified ∧ sclDrive s = .pulledLow) ∧
    (s.phase = .wait → owns s = false → sdaDrive s = .released ∧ sclDrive s = .released) ∧
    (s.phase = .starting true ∨ (∃ x, s.phase = .stopping x) ∨ (∃ b, s.phase = .sendAddr b ∨ s.phase = .sendData b) ∨
      (∃ a, s.phase = .recvData a) → sdaDrive s = .bySymbol ∧ sclDrive s = .bySymbol) ∧
    (∀ (b : Byte) (r : AckBit), ∀ e ∈ [BusEvent.addr b r, .txData b r],
      (sdaLevels e).length = 9 ∧ (sdaPulls e).length = 9 ∧
      (∀ k < 8, (sdaLevels e)[k]? = some (b.getLsbD (7 - k)) ∧ (sdaPulls e)[k]? = some (!b.getLsbD (7 - k))) ∧
      (sdaLevels e)[8]? = some (r == .nack) ∧ (sdaPulls e)[8]? = some false) ∧
    (∀ (v : Byte) (ack : Bool),
      (sdaLevels (.rxData v ack)).length = 9 ∧ (sdaPulls (.rxData v ack)).length = 9 ∧
      (∀ k < 8, (sdaLevels (.rxData v ack))[k]? = some (v.getLsbD (7 - k)) ∧
        (sdaPulls (.rxData v ack))[k]? = some false) ∧
      (sdaLevels (.rxData v ack))[8]? = some (!ack) ∧ (sdaPulls (.rxData v ack))[8]? = some ack) ∧
    (∀ e : BusEvent, (e = .start ∨ e = .repStart → sclHighPeriods e = [[true, false]]) ∧
      (e = .stop → sclHighPeriods e = [[false, true]]) ∧
      ((∃ b r, e = .addr b r ∨ e = .txData b r) ∨ (∃ v ack, e = .rxData v ack) →
        sclHighPeriods e = (sdaLevels e).map ([·])))

/-- R35, R264, R265: irq is EN and IE and INT in every state, on the host line that IRQ_ROUTE names; with EN and IE set a completion raises the request; a STOP raises none; a disable and a reset drop it. -/
def Obligations.InterruptFollowsTheFlag : Prop :=
  (∀ s : State, irq s = true ↔ s.crEn = true ∧ s.crIe = true ∧ s.crInt = true) ∧
  (∀ (line : Nat) (s : State), hostInterrupt line s = true ↔ irq s = true ∧ line = Config.irqRoute.line) ∧
  (∀ (a : Answer) (s t : State), seqStep a s = some t → s.crEn = true → s.crIe = true → a ≠ .done → irq t = true) ∧
  (∀ (s t : State), PhaseFlags s → seqStep .done s = some t → irq t = false) ∧
  (∀ (s t : State) (int ea sta sto ie : Bool), exec (.crDisable int ea sta sto ie) s = .next t → irq t = false) ∧
  (∀ (s t : State) (ts : List Turn), s.turns = .rst :: ts → step s = .next t → irq t = false)

/-- R217, R232: at PS = 0 the default SCL_DIV undoes the driver's divisor: where the division is exact, the bit rate is the
bus clock asked for; R219: at 16 MHz, BRR = 3 and PS = 0 that is F_BUS;
R217, R218: the default is 8 (BRR + 2) P(PS), with P = 1, 4, 16, 64. -/
def Obligations.DefaultDividerInvertsTheDivisor : Prop :=
  (∀ cpu bus : Nat, callWellFormed (.initialise cpu bus) = true → 8 * bus ∣ cpu →
    bitRateOf cpu (sclDivDefault (BitVec.ofNat 8 (divisor cpu bus)) 0#2) = (bus : Rat)) ∧
  divisor 16000000 Config.fBus = 3 ∧ bitRateOf 16000000 (sclDivDefault 3#8 0#2) = (Config.fBus : Rat) ∧
  (∀ (brr : Byte) (p : Nat × BitVec 2), p ∈ [(1, 0#2), (4, 1#2), (16, 2#2), (64, 3#2)] →
    sclDivDefault brr p.2 = 8 * (brr.toNat + 2) * p.1)

/-! ## The reference driver (spec 44) -/

/-- R231, R232: inside its domain, `initialize` and its two writes leave BRR = cpu div (8 bus) − 2 and PS = 0, and nothing
else changed; the host moves three times, by listed turns or by none. That the call is a step of its own is the model's choice (assumption 14). -/
def Obligations.InitialiseSetsTheClock : Prop :=
  ∀ (s : State) (rest : List HostOp) (cpu bus : Nat), (∀ u ∈ s.turns.take 3, u = .host) →
    s.host = .call (.initialise cpu bus) :: rest → 1 ≤ bus → 16 * bus ≤ cpu → cpu / (8 * bus) - 2 ≤ 255 →
    ∃ t, Host.Core.run Sys2Proof.core 3 s = .next t ∧ t.brr.toNat = cpu / (8 * bus) - 2 ∧
      t = { s with host := rest, turns := s.turns.drop 3, result := none, brr := t.brr, ps := 0#2 }

/-- R232, R236, R262: outside its domain a driver call is the model fault and performs none of its accesses (`result` is the
model's own, assumption 14). -/
def Obligations.DriverCallOutsideDomainIsFault : Prop :=
  ∀ (s : State) (ts : List Turn) (rest : List HostOp) (c : DriverCall), HostNext s ts → s.host = .call c :: rest →
    s.fault = none →
    (∃ cpu bus, c = .initialise cpu bus ∧ (bus = 0 ∨ cpu < 16 * bus ∨ 255 < cpu / (8 * bus) - 2)) ∨
    (∃ a d, c = .selectAddress a d ∧ 0x80 ≤ a) →
    step s = .next { s with host := rest, turns := ts, result := none, fault := some .driverPrecondition }

/-- R233 to R236, R238 to R240: the driver's operations expand to these accesses, in front of the host's program. That the
expansion is a step of its own, and the direction bits, are choices (assumptions 14, 15). -/
def Obligations.DriverCallsExpand : Prop :=
  ∀ (s : State) (ts : List Turn) (rest : List HostOp) (c : DriverCall) (ops : List HostOp), HostNext s ts →
    s.host = .call c :: rest →
    (c = .issueStart ∧ ops = [.access 0xCA4#16, .poll, .check 0x01#5 true]) ∨
    (∃ (a : BitVec 7), (c = .selectAddress a.toNat .write ∧
      ops = [.access (0xB#8 ++ (a ++ 0#1)), .access 0xC84#16, .poll, .check 0x03#5 true]) ∨
      (c = .selectAddress a.toNat .read ∧
      ops = [.access (0xB#8 ++ (a ++ 1#1)), .access 0xC84#16, .poll, .check 0x03#5 true])) ∨
    (∃ b : Byte, c = .sendByte b ∧ ops = [.access (0xB#8 ++ b), .access 0xC84#16, .poll, .check 0x05#5 false]) ∨
    (∃ bs : List Byte, c = .sendBytes bs ∧
      ops = (bs.map fun b => [.access (0xB#8 ++ b), .access 0xC84#16, .poll, .check 0x05#5 false]).flatten) ∨
    (c = .issueStop ∧ ops = [.access 0xC94#16]) ∨
    (c = .awaitCompletion ∧ ops = [.poll]) ∨
    (∃ e : Code5, c = .checkStatus e ∧ ops = [.check e true]) →
    step s = .next { s with host := ops ++ rest, turns := ts, result := none }

/-- R233, R234: a poll ends exactly when the CR it reads has bit 7 = 1 and otherwise repeats; a check answers whether
SR[7:3] is the expected code, the PS bits never mattering. Poll and check as operations are the model's form
(assumption 14). -/
def Obligations.PollRepeatsAndCheckCompares : Prop :=
  ∀ (s : State) (ts : List Turn) (rest : List HostOp), HostNext s ts →
    (s.host = .poll :: rest →
      (s.crInt = true → step s = .next { s with host := rest, turns := ts, rdata := readCr s }) ∧
      (s.crInt = false → step s = .next { s with turns := ts, rdata := readCr s })) ∧
    (∀ (e : Code5) (keep : Bool), s.host = .check e keep :: rest →
      step s = .next { s with
        host := rest, turns := ts, rdata := readSr s, result := if keep then some (s.status == e) else s.result })
end

