-- ==== Sys2Proof/Laws/State.lean ====
section
/-! SUPPORT. What each named operation does to each field of the state, one lemma per field, so that no proof unfolds a
record update. -/

namespace Sys2Proof.Machine

/-! ## returnByte -/

@[simp] theorem returnByte_crInt (v : Byte) (s : State) : (returnByte v s).crInt = s.crInt := rfl
@[simp] theorem returnByte_crEa (v : Byte) (s : State) : (returnByte v s).crEa = s.crEa := rfl
@[simp] theorem returnByte_crSta (v : Byte) (s : State) : (returnByte v s).crSta = s.crSta := rfl
@[simp] theorem returnByte_crSto (v : Byte) (s : State) : (returnByte v s).crSto = s.crSto := rfl
@[simp] theorem returnByte_crWc (v : Byte) (s : State) : (returnByte v s).crWc = s.crWc := rfl
@[simp] theorem returnByte_crEn (v : Byte) (s : State) : (returnByte v s).crEn = s.crEn := rfl
@[simp] theorem returnByte_crIe (v : Byte) (s : State) : (returnByte v s).crIe = s.crIe := rfl
@[simp] theorem returnByte_status (v : Byte) (s : State) : (returnByte v s).status = s.status := rfl
@[simp] theorem returnByte_ps (v : Byte) (s : State) : (returnByte v s).ps = s.ps := rfl
@[simp] theorem returnByte_dr (v : Byte) (s : State) : (returnByte v s).dr = s.dr := rfl
@[simp] theorem returnByte_brr (v : Byte) (s : State) : (returnByte v s).brr = s.brr := rfl
@[simp] theorem returnByte_phase (v : Byte) (s : State) : (returnByte v s).phase = s.phase := rfl
@[simp] theorem returnByte_fault (v : Byte) (s : State) : (returnByte v s).fault = s.fault := rfl
@[simp] theorem returnByte_trace (v : Byte) (s : State) : (returnByte v s).trace = s.trace := rfl
@[simp] theorem returnByte_rdata (v : Byte) (s : State) : (returnByte v s).rdata = v := rfl
@[simp] theorem returnByte_draws (v : Byte) (s : State) : (returnByte v s).draws = s.draws := rfl
@[simp] theorem returnByte_host (v : Byte) (s : State) : (returnByte v s).host = s.host := rfl
@[simp] theorem returnByte_turns (v : Byte) (s : State) : (returnByte v s).turns = s.turns := rfl
@[simp] theorem returnByte_result (v : Byte) (s : State) : (returnByte v s).result = s.result := rfl

/-! ## returnFree -/

@[simp] theorem returnFree_crInt (s : State) : (returnFree s).crInt = s.crInt := rfl
@[simp] theorem returnFree_crEa (s : State) : (returnFree s).crEa = s.crEa := rfl
@[simp] theorem returnFree_crSta (s : State) : (returnFree s).crSta = s.crSta := rfl
@[simp] theorem returnFree_crSto (s : State) : (returnFree s).crSto = s.crSto := rfl
@[simp] theorem returnFree_crWc (s : State) : (returnFree s).crWc = s.crWc := rfl
@[simp] theorem returnFree_crEn (s : State) : (returnFree s).crEn = s.crEn := rfl
@[simp] theorem returnFree_crIe (s : State) : (returnFree s).crIe = s.crIe := rfl
@[simp] theorem returnFree_status (s : State) : (returnFree s).status = s.status := rfl
@[simp] theorem returnFree_ps (s : State) : (returnFree s).ps = s.ps := rfl
@[simp] theorem returnFree_dr (s : State) : (returnFree s).dr = s.dr := rfl
@[simp] theorem returnFree_brr (s : State) : (returnFree s).brr = s.brr := rfl
@[simp] theorem returnFree_phase (s : State) : (returnFree s).phase = s.phase := rfl
@[simp] theorem returnFree_fault (s : State) : (returnFree s).fault = s.fault := rfl
@[simp] theorem returnFree_trace (s : State) : (returnFree s).trace = s.trace := rfl
@[simp] theorem returnFree_rdata (s : State) : (returnFree s).rdata = nextFree s := rfl
@[simp] theorem returnFree_draws (s : State) : (returnFree s).draws = s.draws + 1 := rfl
@[simp] theorem returnFree_host (s : State) : (returnFree s).host = s.host := rfl
@[simp] theorem returnFree_turns (s : State) : (returnFree s).turns = s.turns := rfl
@[simp] theorem returnFree_result (s : State) : (returnFree s).result = s.result := rfl

/-! ## drFree -/

@[simp] theorem drFree_crInt (s : State) : (drFree s).crInt = s.crInt := rfl
@[simp] theorem drFree_crEa (s : State) : (drFree s).crEa = s.crEa := rfl
@[simp] theorem drFree_crSta (s : State) : (drFree s).crSta = s.crSta := rfl
@[simp] theorem drFree_crSto (s : State) : (drFree s).crSto = s.crSto := rfl
@[simp] theorem drFree_crWc (s : State) : (drFree s).crWc = s.crWc := rfl
@[simp] theorem drFree_crEn (s : State) : (drFree s).crEn = s.crEn := rfl
@[simp] theorem drFree_crIe (s : State) : (drFree s).crIe = s.crIe := rfl
@[simp] theorem drFree_status (s : State) : (drFree s).status = s.status := rfl
@[simp] theorem drFree_ps (s : State) : (drFree s).ps = s.ps := rfl
@[simp] theorem drFree_dr (s : State) : (drFree s).dr = nextFree s := rfl
@[simp] theorem drFree_brr (s : State) : (drFree s).brr = s.brr := rfl
@[simp] theorem drFree_phase (s : State) : (drFree s).phase = s.phase := rfl
@[simp] theorem drFree_fault (s : State) : (drFree s).fault = s.fault := rfl
@[simp] theorem drFree_trace (s : State) : (drFree s).trace = s.trace := rfl
@[simp] theorem drFree_rdata (s : State) : (drFree s).rdata = s.rdata := rfl
@[simp] theorem drFree_draws (s : State) : (drFree s).draws = s.draws + 1 := rfl
@[simp] theorem drFree_host (s : State) : (drFree s).host = s.host := rfl
@[simp] theorem drFree_turns (s : State) : (drFree s).turns = s.turns := rfl
@[simp] theorem drFree_result (s : State) : (drFree s).result = s.result := rfl

/-! ## emit -/

@[simp] theorem emit_crInt (e : BusEvent) (s : State) : (emit e s).crInt = s.crInt := rfl
@[simp] theorem emit_crEa (e : BusEvent) (s : State) : (emit e s).crEa = s.crEa := rfl
@[simp] theorem emit_crSta (e : BusEvent) (s : State) : (emit e s).crSta = s.crSta := rfl
@[simp] theorem emit_crSto (e : BusEvent) (s : State) : (emit e s).crSto = s.crSto := rfl
@[simp] theorem emit_crWc (e : BusEvent) (s : State) : (emit e s).crWc = s.crWc := rfl
@[simp] theorem emit_crEn (e : BusEvent) (s : State) : (emit e s).crEn = s.crEn := rfl
@[simp] theorem emit_crIe (e : BusEvent) (s : State) : (emit e s).crIe = s.crIe := rfl
@[simp] theorem emit_status (e : BusEvent) (s : State) : (emit e s).status = s.status := rfl
@[simp] theorem emit_ps (e : BusEvent) (s : State) : (emit e s).ps = s.ps := rfl
@[simp] theorem emit_dr (e : BusEvent) (s : State) : (emit e s).dr = s.dr := rfl
@[simp] theorem emit_brr (e : BusEvent) (s : State) : (emit e s).brr = s.brr := rfl
@[simp] theorem emit_phase (e : BusEvent) (s : State) : (emit e s).phase = s.phase := rfl
@[simp] theorem emit_fault (e : BusEvent) (s : State) : (emit e s).fault = s.fault := rfl
@[simp] theorem emit_trace (e : BusEvent) (s : State) : (emit e s).trace = s.trace ++ [e] := rfl
@[simp] theorem emit_rdata (e : BusEvent) (s : State) : (emit e s).rdata = s.rdata := rfl
@[simp] theorem emit_draws (e : BusEvent) (s : State) : (emit e s).draws = s.draws := rfl
@[simp] theorem emit_host (e : BusEvent) (s : State) : (emit e s).host = s.host := rfl
@[simp] theorem emit_turns (e : BusEvent) (s : State) : (emit e s).turns = s.turns := rfl
@[simp] theorem emit_result (e : BusEvent) (s : State) : (emit e s).result = s.result := rfl

/-! ## raise -/

@[simp] theorem raise_crInt (f : Fault) (s : State) : (raise f s).crInt = s.crInt := rfl
@[simp] theorem raise_crEa (f : Fault) (s : State) : (raise f s).crEa = s.crEa := rfl
@[simp] theorem raise_crSta (f : Fault) (s : State) : (raise f s).crSta = s.crSta := rfl
@[simp] theorem raise_crSto (f : Fault) (s : State) : (raise f s).crSto = s.crSto := rfl
@[simp] theorem raise_crWc (f : Fault) (s : State) : (raise f s).crWc = s.crWc := rfl
@[simp] theorem raise_crEn (f : Fault) (s : State) : (raise f s).crEn = s.crEn := rfl
@[simp] theorem raise_crIe (f : Fault) (s : State) : (raise f s).crIe = s.crIe := rfl
@[simp] theorem raise_status (f : Fault) (s : State) : (raise f s).status = s.status := rfl
@[simp] theorem raise_ps (f : Fault) (s : State) : (raise f s).ps = s.ps := rfl
@[simp] theorem raise_dr (f : Fault) (s : State) : (raise f s).dr = s.dr := rfl
@[simp] theorem raise_brr (f : Fault) (s : State) : (raise f s).brr = s.brr := rfl
@[simp] theorem raise_phase (f : Fault) (s : State) : (raise f s).phase = s.phase := rfl
@[simp] theorem raise_fault (f : Fault) (s : State) : (raise f s).fault = s.fault.or (some f) := rfl
@[simp] theorem raise_trace (f : Fault) (s : State) : (raise f s).trace = s.trace := rfl
@[simp] theorem raise_rdata (f : Fault) (s : State) : (raise f s).rdata = s.rdata := rfl
@[simp] theorem raise_draws (f : Fault) (s : State) : (raise f s).draws = s.draws := rfl
@[simp] theorem raise_host (f : Fault) (s : State) : (raise f s).host = s.host := rfl
@[simp] theorem raise_turns (f : Fault) (s : State) : (raise f s).turns = s.turns := rfl
@[simp] theorem raise_result (f : Fault) (s : State) : (raise f s).result = s.result := rfl

/-! ## complete -/

@[simp] theorem complete_crInt (c : Code5) (s : State) : (complete c s).crInt = true := rfl
@[simp] theorem complete_crEa (c : Code5) (s : State) : (complete c s).crEa = s.crEa := rfl
@[simp] theorem complete_crSta (c : Code5) (s : State) : (complete c s).crSta = s.crSta := rfl
@[simp] theorem complete_crSto (c : Code5) (s : State) : (complete c s).crSto = s.crSto := rfl
@[simp] theorem complete_crWc (c : Code5) (s : State) : (complete c s).crWc = s.crWc := rfl
@[simp] theorem complete_crEn (c : Code5) (s : State) : (complete c s).crEn = s.crEn := rfl
@[simp] theorem complete_crIe (c : Code5) (s : State) : (complete c s).crIe = s.crIe := rfl
@[simp] theorem complete_status (c : Code5) (s : State) : (complete c s).status = c := rfl
@[simp] theorem complete_ps (c : Code5) (s : State) : (complete c s).ps = s.ps := rfl
@[simp] theorem complete_dr (c : Code5) (s : State) : (complete c s).dr = s.dr := rfl
@[simp] theorem complete_brr (c : Code5) (s : State) : (complete c s).brr = s.brr := rfl
@[simp] theorem complete_phase (c : Code5) (s : State) : (complete c s).phase = .wait := rfl
@[simp] theorem complete_fault (c : Code5) (s : State) : (complete c s).fault = s.fault := rfl
@[simp] theorem complete_trace (c : Code5) (s : State) : (complete c s).trace = s.trace := rfl
@[simp] theorem complete_rdata (c : Code5) (s : State) : (complete c s).rdata = s.rdata := rfl
@[simp] theorem complete_draws (c : Code5) (s : State) : (complete c s).draws = s.draws := rfl
@[simp] theorem complete_host (c : Code5) (s : State) : (complete c s).host = s.host := rfl
@[simp] theorem complete_turns (c : Code5) (s : State) : (complete c s).turns = s.turns := rfl
@[simp] theorem complete_result (c : Code5) (s : State) : (complete c s).result = s.result := rfl

/-! ## leaveWait -/

@[simp] theorem leaveWait_crInt (p : Phase) (s : State) : (leaveWait p s).crInt = false := rfl
@[simp] theorem leaveWait_crEa (p : Phase) (s : State) : (leaveWait p s).crEa = s.crEa := rfl
@[simp] theorem leaveWait_crSta (p : Phase) (s : State) : (leaveWait p s).crSta = s.crSta := rfl
@[simp] theorem leaveWait_crSto (p : Phase) (s : State) : (leaveWait p s).crSto = s.crSto := rfl
@[simp] theorem leaveWait_crWc (p : Phase) (s : State) : (leaveWait p s).crWc = s.crWc := rfl
@[simp] theorem leaveWait_crEn (p : Phase) (s : State) : (leaveWait p s).crEn = s.crEn := rfl
@[simp] theorem leaveWait_crIe (p : Phase) (s : State) : (leaveWait p s).crIe = s.crIe := rfl
@[simp] theorem leaveWait_status (p : Phase) (s : State) : (leaveWait p s).status = s.status := rfl
@[simp] theorem leaveWait_ps (p : Phase) (s : State) : (leaveWait p s).ps = s.ps := rfl
@[simp] theorem leaveWait_dr (p : Phase) (s : State) : (leaveWait p s).dr = s.dr := rfl
@[simp] theorem leaveWait_brr (p : Phase) (s : State) : (leaveWait p s).brr = s.brr := rfl
@[simp] theorem leaveWait_phase (p : Phase) (s : State) : (leaveWait p s).phase = p := rfl
@[simp] theorem leaveWait_fault (p : Phase) (s : State) : (leaveWait p s).fault = s.fault := rfl
@[simp] theorem leaveWait_trace (p : Phase) (s : State) : (leaveWait p s).trace = s.trace := rfl
@[simp] theorem leaveWait_rdata (p : Phase) (s : State) : (leaveWait p s).rdata = s.rdata := rfl
@[simp] theorem leaveWait_draws (p : Phase) (s : State) : (leaveWait p s).draws = s.draws := rfl
@[simp] theorem leaveWait_host (p : Phase) (s : State) : (leaveWait p s).host = s.host := rfl
@[simp] theorem leaveWait_turns (p : Phase) (s : State) : (leaveWait p s).turns = s.turns := rfl
@[simp] theorem leaveWait_result (p : Phase) (s : State) : (leaveWait p s).result = s.result := rfl

/-! ## enable -/

@[simp] theorem enable_crInt (s : State) : (enable s).crInt = s.crInt := rfl
@[simp] theorem enable_crEa (s : State) : (enable s).crEa = s.crEa := rfl
@[simp] theorem enable_crSta (s : State) : (enable s).crSta = s.crSta := rfl
@[simp] theorem enable_crSto (s : State) : (enable s).crSto = s.crSto := rfl
@[simp] theorem enable_crWc (s : State) : (enable s).crWc = s.crWc := rfl
@[simp] theorem enable_crEn (s : State) : (enable s).crEn = s.crEn := rfl
@[simp] theorem enable_crIe (s : State) : (enable s).crIe = s.crIe := rfl
@[simp] theorem enable_status (s : State) : (enable s).status = s.status := rfl
@[simp] theorem enable_ps (s : State) : (enable s).ps = s.ps := rfl
@[simp] theorem enable_dr (s : State) : (enable s).dr = s.dr := rfl
@[simp] theorem enable_brr (s : State) : (enable s).brr = s.brr := rfl
@[simp] theorem enable_phase (s : State) : (enable s).phase = (if s.phase = .off then .idle else s.phase) := rfl
@[simp] theorem enable_fault (s : State) : (enable s).fault = s.fault := rfl
@[simp] theorem enable_trace (s : State) : (enable s).trace = s.trace := rfl
@[simp] theorem enable_rdata (s : State) : (enable s).rdata = s.rdata := rfl
@[simp] theorem enable_draws (s : State) : (enable s).draws = s.draws := rfl
@[simp] theorem enable_host (s : State) : (enable s).host = s.host := rfl
@[simp] theorem enable_turns (s : State) : (enable s).turns = s.turns := rfl
@[simp] theorem enable_result (s : State) : (enable s).result = s.result := rfl

/-! ## writeFields -/

@[simp] theorem writeFields_crInt (ea sta sto en ie : Bool) (s : State) : (writeFields ea sta sto en ie s).crInt = s.crInt :=
  rfl
@[simp] theorem writeFields_crEa (ea sta sto en ie : Bool) (s : State) : (writeFields ea sta sto en ie s).crEa = ea :=
  rfl
@[simp] theorem writeFields_crSta (ea sta sto en ie : Bool) (s : State) : (writeFields ea sta sto en ie s).crSta = sta :=
  rfl
@[simp] theorem writeFields_crSto (ea sta sto en ie : Bool) (s : State) : (writeFields ea sta sto en ie s).crSto = (if stopPending s.phase then true else sto) :=
  rfl
@[simp] theorem writeFields_crWc (ea sta sto en ie : Bool) (s : State) : (writeFields ea sta sto en ie s).crWc = s.crWc :=
  rfl
@[simp] theorem writeFields_crEn (ea sta sto en ie : Bool) (s : State) : (writeFields ea sta sto en ie s).crEn = en :=
  rfl
@[simp] theorem writeFields_crIe (ea sta sto en ie : Bool) (s : State) : (writeFields ea sta sto en ie s).crIe = ie :=
  rfl
@[simp] theorem writeFields_status (ea sta sto en ie : Bool) (s : State) : (writeFields ea sta sto en ie s).status = s.status :=
  rfl
@[simp] theorem writeFields_ps (ea sta sto en ie : Bool) (s : State) : (writeFields ea sta sto en ie s).ps = s.ps :=
  rfl
@[simp] theorem writeFields_dr (ea sta sto en ie : Bool) (s : State) : (writeFields ea sta sto en ie s).dr = s.dr :=
  rfl
@[simp] theorem writeFields_brr (ea sta sto en ie : Bool) (s : State) : (writeFields ea sta sto en ie s).brr = s.brr :=
  rfl
@[simp] theorem writeFields_phase (ea sta sto en ie : Bool) (s : State) : (writeFields ea sta sto en ie s).phase = s.phase :=
  rfl
@[simp] theorem writeFields_fault (ea sta sto en ie : Bool) (s : State) : (writeFields ea sta sto en ie s).fault = s.fault :=
  rfl
@[simp] theorem writeFields_trace (ea sta sto en ie : Bool) (s : State) : (writeFields ea sta sto en ie s).trace = s.trace :=
  rfl
@[simp] theorem writeFields_rdata (ea sta sto en ie : Bool) (s : State) : (writeFields ea sta sto en ie s).rdata = s.rdata :=
  rfl
@[simp] theorem writeFields_draws (ea sta sto en ie : Bool) (s : State) : (writeFields ea sta sto en ie s).draws = s.draws :=
  rfl
@[simp] theorem writeFields_host (ea sta sto en ie : Bool) (s : State) : (writeFields ea sta sto en ie s).host = s.host :=
  rfl
@[simp] theorem writeFields_turns (ea sta sto en ie : Bool) (s : State) : (writeFields ea sta sto en ie s).turns = s.turns :=
  rfl
@[simp] theorem writeFields_result (ea sta sto en ie : Bool) (s : State) : (writeFields ea sta sto en ie s).result = s.result :=
  rfl

/-! ## releaseIfOwner -/

theorem releaseIfOwner_eq (s : State) :
    releaseIfOwner s = { s with trace := if owns s then s.trace ++ [.release] else s.trace } := by
  unfold releaseIfOwner emit; split <;> rfl

@[simp] theorem releaseIfOwner_crInt (s : State) : (releaseIfOwner s).crInt = s.crInt := by rw [releaseIfOwner_eq]
@[simp] theorem releaseIfOwner_crEa (s : State) : (releaseIfOwner s).crEa = s.crEa := by rw [releaseIfOwner_eq]
@[simp] theorem releaseIfOwner_crSta (s : State) : (releaseIfOwner s).crSta = s.crSta := by rw [releaseIfOwner_eq]
@[simp] theorem releaseIfOwner_crSto (s : State) : (releaseIfOwner s).crSto = s.crSto := by rw [releaseIfOwner_eq]
@[simp] theorem releaseIfOwner_crWc (s : State) : (releaseIfOwner s).crWc = s.crWc := by rw [releaseIfOwner_eq]
@[simp] theorem releaseIfOwner_crEn (s : State) : (releaseIfOwner s).crEn = s.crEn := by rw [releaseIfOwner_eq]
@[simp] theorem releaseIfOwner_crIe (s : State) : (releaseIfOwner s).crIe = s.crIe := by rw [releaseIfOwner_eq]
@[simp] theorem releaseIfOwner_status (s : State) : (releaseIfOwner s).status = s.status := by rw [releaseIfOwner_eq]
@[simp] theorem releaseIfOwner_ps (s : State) : (releaseIfOwner s).ps = s.ps := by rw [releaseIfOwner_eq]
@[simp] theorem releaseIfOwner_dr (s : State) : (releaseIfOwner s).dr = s.dr := by rw [releaseIfOwner_eq]
@[simp] theorem releaseIfOwner_brr (s : State) : (releaseIfOwner s).brr = s.brr := by rw [releaseIfOwner_eq]
@[simp] theorem releaseIfOwner_phase (s : State) : (releaseIfOwner s).phase = s.phase := by rw [releaseIfOwner_eq]
@[simp] theorem releaseIfOwner_fault (s : State) : (releaseIfOwner s).fault = s.fault := by rw [releaseIfOwner_eq]
@[simp] theorem releaseIfOwner_trace (s : State) : (releaseIfOwner s).trace = (if owns s then s.trace ++ [.release] else s.trace) :=
  by rw [releaseIfOwner_eq]
@[simp] theorem releaseIfOwner_rdata (s : State) : (releaseIfOwner s).rdata = s.rdata := by rw [releaseIfOwner_eq]
@[simp] theorem releaseIfOwner_draws (s : State) : (releaseIfOwner s).draws = s.draws := by rw [releaseIfOwner_eq]
@[simp] theorem releaseIfOwner_host (s : State) : (releaseIfOwner s).host = s.host := by rw [releaseIfOwner_eq]
@[simp] theorem releaseIfOwner_turns (s : State) : (releaseIfOwner s).turns = s.turns := by rw [releaseIfOwner_eq]
@[simp] theorem releaseIfOwner_result (s : State) : (releaseIfOwner s).result = s.result := by rw [releaseIfOwner_eq]

/-! ## disable -/

@[simp] theorem disable_crInt (s : State) : (disable s).crInt = false := rfl
@[simp] theorem disable_crEa (s : State) : (disable s).crEa = s.crEa := releaseIfOwner_crEa s
@[simp] theorem disable_crSta (s : State) : (disable s).crSta = s.crSta := releaseIfOwner_crSta s
@[simp] theorem disable_crSto (s : State) : (disable s).crSto = false := rfl
@[simp] theorem disable_crWc (s : State) : (disable s).crWc = s.crWc := releaseIfOwner_crWc s
@[simp] theorem disable_crEn (s : State) : (disable s).crEn = s.crEn := releaseIfOwner_crEn s
@[simp] theorem disable_crIe (s : State) : (disable s).crIe = s.crIe := releaseIfOwner_crIe s
@[simp] theorem disable_status (s : State) : (disable s).status = 0x1F#5 := rfl
@[simp] theorem disable_ps (s : State) : (disable s).ps = s.ps := releaseIfOwner_ps s
@[simp] theorem disable_dr (s : State) : (disable s).dr = s.dr := releaseIfOwner_dr s
@[simp] theorem disable_brr (s : State) : (disable s).brr = s.brr := releaseIfOwner_brr s
@[simp] theorem disable_phase (s : State) : (disable s).phase = .off := rfl
@[simp] theorem disable_fault (s : State) : (disable s).fault = s.fault := releaseIfOwner_fault s
@[simp] theorem disable_trace (s : State) : (disable s).trace = (if owns s then s.trace ++ [.release] else s.trace) :=
  releaseIfOwner_trace s
@[simp] theorem disable_rdata (s : State) : (disable s).rdata = s.rdata := releaseIfOwner_rdata s
@[simp] theorem disable_draws (s : State) : (disable s).draws = s.draws := releaseIfOwner_draws s
@[simp] theorem disable_host (s : State) : (disable s).host = s.host := releaseIfOwner_host s
@[simp] theorem disable_turns (s : State) : (disable s).turns = s.turns := releaseIfOwner_turns s
@[simp] theorem disable_result (s : State) : (disable s).result = s.result := releaseIfOwner_result s

/-! ## resetBlock -/

@[simp] theorem resetBlock_crInt (s : State) : (resetBlock s).crInt = false := rfl
@[simp] theorem resetBlock_crEa (s : State) : (resetBlock s).crEa = false := rfl
@[simp] theorem resetBlock_crSta (s : State) : (resetBlock s).crSta = false := rfl
@[simp] theorem resetBlock_crSto (s : State) : (resetBlock s).crSto = false := rfl
@[simp] theorem resetBlock_crWc (s : State) : (resetBlock s).crWc = false := rfl
@[simp] theorem resetBlock_crEn (s : State) : (resetBlock s).crEn = false := rfl
@[simp] theorem resetBlock_crIe (s : State) : (resetBlock s).crIe = false := rfl
@[simp] theorem resetBlock_status (s : State) : (resetBlock s).status = 0x1F#5 := rfl
@[simp] theorem resetBlock_ps (s : State) : (resetBlock s).ps = 0#2 := rfl
@[simp] theorem resetBlock_dr (s : State) : (resetBlock s).dr = nextFree s := by simp [resetBlock, nextFree]
@[simp] theorem resetBlock_brr (s : State) : (resetBlock s).brr = 0#8 := rfl
@[simp] theorem resetBlock_phase (s : State) : (resetBlock s).phase = .off := rfl
@[simp] theorem resetBlock_fault (s : State) : (resetBlock s).fault = s.fault := releaseIfOwner_fault s
@[simp] theorem resetBlock_trace (s : State) : (resetBlock s).trace = (if owns s then s.trace ++ [.release] else s.trace) :=
  releaseIfOwner_trace s
@[simp] theorem resetBlock_rdata (s : State) : (resetBlock s).rdata = s.rdata := releaseIfOwner_rdata s
@[simp] theorem resetBlock_draws (s : State) : (resetBlock s).draws = s.draws + 1 := by simp [resetBlock, nextFree]
@[simp] theorem resetBlock_host (s : State) : (resetBlock s).host = s.host := releaseIfOwner_host s
@[simp] theorem resetBlock_turns (s : State) : (resetBlock s).turns = s.turns := releaseIfOwner_turns s
@[simp] theorem resetBlock_result (s : State) : (resetBlock s).result = s.result := releaseIfOwner_result s

end Sys2Proof.Machine
end

