-- ==== Sys2Proof/Laws/Cases.lean ====
section
/-! SUPPORT. What each shared operation can do, said once: the outcomes of a go write, of a CR write, of an access, of a
sequencer step and of a step of the machine. Proofs cite these and do not unfold the definitions. -/

namespace Sys2Proof.Machine

/-! ## A write of CR -/

/-- A CR write: fields only while `Off`, a disable, an enable, or an enable and a go. -/
theorem writeCr_cases (int ea sta sto en ie : Bool) (s : State) :
    (en = false ∧ s.phase = .off ∧ writeCr int ea sta sto en ie s = writeFields ea sta sto en ie s) ∨
    (en = false ∧ s.phase ≠ .off ∧ writeCr int ea sta sto en ie s = disable (writeFields ea sta sto en ie s)) ∨
    (en = true ∧ int = false ∧ writeCr int ea sta sto en ie s = enable (writeFields ea sta sto en ie s)) ∨
    (en = true ∧ int = true ∧ writeCr int ea sta sto en ie s = go sta sto (enable (writeFields ea sta sto en ie s))) := by
  cases en <;> cases int <;> by_cases h : s.phase = .off <;> simp [writeCr, h]

/-- A go write from `Wait`: each row of the dispatch table, or the model fault. -/
theorem goWait_cases (sta sto : Bool) (s : State) :
    (s.status ∈ startCodes ∧ sta = false ∧ sto = false ∧ goWait sta sto s = sendAddress s) ∨
    (s.status ∈ transmitCodes ∧ sta = false ∧ sto = false ∧ goWait sta sto s = sendDataByte s) ∨
    (s.status ∈ transmitCodes ++ receiveDoneCodes ∧ sta = true ∧ sto = false ∧ goWait sta sto s = repeatStart s) ∨
    (s.status ∈ transmitCodes ++ receiveDoneCodes ∧ sta = false ∧ sto = true ∧ goWait sta sto s = requestStop s) ∨
    (s.status ∈ transmitCodes ++ receiveDoneCodes ∧ sta = true ∧ sto = true ∧ goWait sta sto s = requestStopStart s) ∨
    (s.status ∈ receiveCodes ∧ sta = false ∧ sto = false ∧ goWait sta sto s = receiveByte s) ∨
    (s.status = stArbLost ∧ sta = false ∧ sto = false ∧ goWait sta sto s = giveUp s) ∨
    (s.status = stArbLost ∧ sta = true ∧ sto = false ∧ goWait sta sto s = retryStart s) ∨
    (s.status = stBusError ∧ sta = false ∧ sto = true ∧ goWait sta sto s = recoverBusError s) ∨
    goWait sta sto s = undefinedGo sta sto s := by
  unfold goWait goAfterStart goAsTransmitter goAsReceiver goAfterReceive goAfterArbLost goAfterBusError goEndTransfer
  split
  · cases sta <;> cases sto <;> simp_all
  split
  · cases sta <;> cases sto <;> simp_all
  split
  · cases sta <;> cases sto <;> simp_all
  split
  · cases sta <;> cases sto <;> simp_all
  split
  · cases sta <;> cases sto <;> simp_all
  split
  · cases sta <;> cases sto <;> simp_all
  · simp

/-- A go write, by phase. -/
theorem go_cases (sta sto : Bool) (s : State) :
    (s.phase = .idle ∧ sta = true ∧ go sta sto s = startFromIdle s) ∨
    (s.phase = .idle ∧ sta = false ∧ sto = true ∧ go sta sto s = stopNotOwning s) ∨
    (s.phase = .wait ∧ go sta sto s = goWait sta sto s) ∨
    (∃ x, s.phase = .stopping x ∧ go sta sto s = goWhileStopping x sta s) ∨
    go sta sto s = goDuringTransfer s ∨
    go sta sto s = undefinedGo sta sto s := by
  unfold go
  split
  · simp
  · cases sta <;> cases sto <;> simp_all [goIdle]
  all_goals simp_all

/-- What no go write touches: the fields just written but STO, WC, DR, the clock configuration, and what is outside the
block. -/
theorem go_frame (sta sto : Bool) (s : State) :
    (go sta sto s).crEa = s.crEa ∧ (go sta sto s).crSta = s.crSta ∧ (go sta sto s).crIe = s.crIe ∧
    (go sta sto s).crEn = s.crEn ∧ (go sta sto s).crWc = s.crWc ∧ (go sta sto s).dr = s.dr ∧
    (go sta sto s).brr = s.brr ∧ (go sta sto s).ps = s.ps ∧ (go sta sto s).rdata = s.rdata ∧
    (go sta sto s).draws = s.draws ∧ (go sta sto s).host = s.host ∧ (go sta sto s).turns = s.turns ∧
    (go sta sto s).result = s.result := by
  rcases go_cases sta sto s with ⟨_, _, h⟩ | ⟨_, _, _, h⟩ | ⟨_, h⟩ | ⟨x, _, h⟩ | h | h <;> rw [h]
  · simp [startFromIdle]
  · simp [stopNotOwning]
  · rcases goWait_cases sta sto s with ⟨_, _, _, h⟩ | ⟨_, _, _, h⟩ | ⟨_, _, _, h⟩ | ⟨_, _, _, h⟩ | ⟨_, _, _, h⟩ |
      ⟨_, _, _, h⟩ | ⟨_, _, _, h⟩ | ⟨_, _, _, h⟩ | ⟨_, _, _, h⟩ | h <;> rw [h] <;>
      simp [sendAddress, sendDataByte, repeatStart, requestStop, requestStopStart, receiveByte, giveUp, retryStart,
        recoverBusError, undefinedGo]
  · simp [goWhileStopping]
  · simp [goDuringTransfer]
  · simp [undefinedGo]

/-! ## An access -/

/-- What an access can do: return a byte; write BRR, PS or DR; collide; nothing; or a CR write. -/
theorem exec_cases {i : Instr} {s t : State} (h : exec i s = .next t) :
    (∃ v d, t = { s with rdata := v, draws := d }) ∨ (∃ v, t = { s with brr := v }) ∨ (∃ p, t = { s with ps := p }) ∨
    (s.crInt = true ∧ ∃ v, t = { s with dr := v, crWc := false }) ∨ (s.crInt = false ∧ t = { s with crWc := true }) ∨
    t = s ∨ (∃ int ea sta sto en ie, t = writeCr int ea sta sto en ie s) := by
  cases i
  case rdBrr => exact .inl ⟨_, _, (Host.Outcome.next.inj h).symm⟩
  case rdSr => exact .inl ⟨_, _, (Host.Outcome.next.inj h).symm⟩
  case rdCr => exact .inl ⟨_, _, (Host.Outcome.next.inj h).symm⟩
  case rdRsv2 => exact .inl ⟨_, _, (Host.Outcome.next.inj h).symm⟩
  case rdRsv5 => exact .inl ⟨_, _, (Host.Outcome.next.inj h).symm⟩
  case rdRsv6 => exact .inl ⟨_, _, (Host.Outcome.next.inj h).symm⟩
  case rdRsv7 => exact .inl ⟨_, _, (Host.Outcome.next.inj h).symm⟩
  case rdDr =>
    have e := (Host.Outcome.next.inj h).symm
    split at e
    · exact .inl ⟨_, _, e⟩
    · exact .inl ⟨_, _, e⟩
  case wrBrr v => exact .inr (.inl ⟨v, (Host.Outcome.next.inj h).symm⟩)
  case wrSr v => exact .inr (.inr (.inl ⟨_, (Host.Outcome.next.inj h).symm⟩))
  case wrDr v =>
    have e := (Host.Outcome.next.inj h).symm
    cases hi : s.crInt with
    | true => exact .inr (.inr (.inr (.inl ⟨rfl, v, by simpa [hi] using e⟩)))
    | false => exact .inr (.inr (.inr (.inr (.inl ⟨rfl, by simpa [hi] using e⟩))))
  case wrRsv2 v => exact .inr (.inr (.inr (.inr (.inr (.inl (Host.Outcome.next.inj h).symm)))))
  case wrRsv5 v => exact .inr (.inr (.inr (.inr (.inr (.inl (Host.Outcome.next.inj h).symm)))))
  case wrRsv6 v => exact .inr (.inr (.inr (.inr (.inr (.inl (Host.Outcome.next.inj h).symm)))))
  case wrRsv7 v => exact .inr (.inr (.inr (.inr (.inr (.inl (Host.Outcome.next.inj h).symm)))))
  all_goals exact .inr (.inr (.inr (.inr (.inr (.inr ⟨_, _, _, _, _, _, (Host.Outcome.next.inj h).symm⟩)))))

/-- A read of DR, by phase: a drawn byte where `drUnspecified` says so, else DR. -/
theorem execRdDr_cases (s : State) :
    (drUnspecified s.phase = true ∧ execRdDr s = .next (returnFree s)) ∨
    (drUnspecified s.phase = false ∧ execRdDr s = .next (returnByte s.dr s)) := by
  cases h : drUnspecified s.phase <;> simp [execRdDr, h]

/-! ## A sequencer step -/

/-- What a sequencer step can do, and in which phase. -/
theorem seqStep_cases {a : Answer} {s t : State} (h : seqStep a s = some t) :
    (∃ rep, s.phase = .starting rep ∧ a = .granted ∧ t = startDone rep s) ∨
    (∃ x, s.phase = .stopping x ∧ a = .done ∧ t = stopDone x s) ∨
    (∃ b r, s.phase = .sendAddr b ∧ (a = .ack ∧ r = .ack ∨ a = .nack ∧ r = .nack) ∧ t = addrDone b r s) ∨
    (∃ b r, s.phase = .sendData b ∧ (a = .ack ∧ r = .ack ∨ a = .nack ∧ r = .nack) ∧ t = txDone b r s) ∨
    (∃ ack v, s.phase = .recvData ack ∧ a = .byte v ∧ t = rxDone ack v s) ∨
    (((∃ b, s.phase = .sendAddr b) ∨ (∃ b, s.phase = .sendData b) ∨ s.phase = .recvData false) ∧ a = .arbLost ∧
      t = arbLostDone s) ∨
    (shifting s.phase = true ∧ a = .busError ∧ t = busErrorDone s) := by
  unfold seqStep at h
  cases hp : s.phase <;> cases a <;> simp_all [shifting]

/-! ## The host and the whole machine -/

/-- A word that decodes is performed by its meaning. -/
theorem hostOp_access {w : HostWord} {i : Instr} (h : decode w = .ok i) (s : State) : hostOp (.access w) s = exec i s := by
  simp [hostOp, accessByWord, h]

/-- What an operation of the host can do when it answers a next state: an access, an access followed by the end of a
poll or of a check, nothing, a recorded fault, or a driver call. -/
theorem hostOp_cases {op : HostOp} {s t : State} (h : hostOp op s = .next t) :
    (∃ i, exec i s = .next t) ∨ (∃ u, exec .rdCr s = .next u ∧ t = pollAgain u) ∨
    (∃ e k u, exec .rdSr s = .next u ∧ t = checkRead e k u) ∨ t = s ∨ (∃ f, t = raise f s) ∨
    (∃ c, t = callDriver c s) := by
  cases op with
  | access w =>
    simp only [hostOp, accessByWord] at h
    split at h
    · exact .inl ⟨_, h⟩
    · cases h
  | bus a =>
    simp only [hostOp, accessByAddress] at h
    split at h
    · split at h
      · exact .inr (.inr (.inr (.inr (.inl ⟨_, (Host.Outcome.next.inj h).symm⟩))))
      · split at h
        · exact .inl ⟨_, h⟩
        · exact .inr (.inr (.inr (.inr (.inl ⟨_, (Host.Outcome.next.inj h).symm⟩))))
      · split at h
        · exact .inl ⟨_, h⟩
        · exact .inr (.inr (.inr (.inr (.inl ⟨_, (Host.Outcome.next.inj h).symm⟩))))
    · exact .inr (.inr (.inr (.inl (Host.Outcome.next.inj h).symm)))
  | poll => exact .inr (.inl ⟨_, rfl, (Host.Outcome.next.inj h).symm⟩)
  | check e k => exact .inr (.inr (.inl ⟨e, k, _, rfl, (Host.Outcome.next.inj h).symm⟩))
  | call c => exact .inr (.inr (.inr (.inr (.inr ⟨c, (Host.Outcome.next.inj h).symm⟩))))

/-- What the host's turn can do. -/
theorem hostTurn_cases {s t : State} (h : hostTurn s = .next t) :
    (s.host = [] ∧ t = s) ∨ ∃ op rest, s.host = op :: rest ∧ hostOp op { s with host := rest } = .next t := by
  unfold hostTurn at h
  split at h
  · exact .inl ⟨‹_›, (Host.Outcome.next.inj h).symm⟩
  · exact .inr ⟨_, _, ‹_›, h⟩

/-- Where the host moves next, a step is the host's turn with the turns that are left. -/
theorem step_of_hostNext {s : State} {ts : List Turn} (h : HostNext s ts) : step s = hostTurn { s with turns := ts } := by
  rcases h with ⟨h, rfl⟩ | h
  · have e : { s with turns := [] } = s := by rw [← h]
    rw [e]
    simp only [step, h]
  · simp only [step, h]

/-- There, the host performs the operation at the head of its list. -/
theorem step_of_hostNext_cons {s : State} {ts : List Turn} {op : HostOp} {rest : List HostOp} (h : HostNext s ts)
    (ho : s.host = op :: rest) : step s = hostOp op { s with host := rest, turns := ts } := by
  simp [step_of_hostNext h, hostTurn, ho]

/-- What a step can do: a host turn, a sequencer step, a turn whose answer is not admitted, or a reset. `ts` is what is
left of the turns. -/
theorem step_cases {s t : State} (h : step s = .next t) :
    (∃ ts, (s.turns = .host :: ts ∨ s.turns = [] ∧ ts = []) ∧ hostTurn { s with turns := ts } = .next t) ∨
    (∃ a ts, s.turns = .bus a :: ts ∧ seqStep a { s with turns := ts } = some t) ∨
    (∃ a ts, s.turns = .bus a :: ts ∧ seqStep a { s with turns := ts } = none ∧ t = { s with turns := ts }) ∨
    (∃ ts, s.turns = .rst :: ts ∧ t = resetBlock { s with turns := ts }) := by
  unfold step at h
  split at h
  · rename_i e
    exact .inl ⟨[], .inr ⟨e, rfl⟩, by simpa [← e] using h⟩
  · exact .inl ⟨_, .inl ‹_›, h⟩
  · rename_i a ts e
    have e' := (Host.Outcome.next.inj h).symm
    unfold busTurn at e'
    cases hs : seqStep a { s with turns := ts } with
    | none => exact .inr (.inr (.inl ⟨a, ts, e, hs, by simpa [hs] using e'⟩))
    | some u => exact .inr (.inl ⟨a, ts, e, by simpa [hs] using e'.symm⟩)
  · exact .inr (.inr (.inr ⟨_, ‹_›, (Host.Outcome.next.inj h).symm⟩))

/-! ## Invariants -/

/-- What every access, sequencer step, reset and recorded fault keeps, and what does not depend on the lists of the host
and of the turns and on the driver's result, every step keeps. -/
theorem step_keeps {P : State → Prop} (hexec : ∀ i s t, P s → exec i s = .next t → P t)
    (hseq : ∀ a s t, P s → seqStep a s = some t → P t) (hreset : ∀ s, P s → P (resetBlock s))
    (hraise : ∀ f s, P s → P (raise f s))
    (hout : ∀ s host turns result, P s → P { s with host := host, turns := turns, result := result })
    {s t : State} (hs : P s) (h : step s = .next t) : P t := by
  have hturn : ∀ u, P u → hostTurn u = .next t → P t := by
    intro u hu h
    rcases hostTurn_cases h with ⟨_, rfl⟩ | ⟨op, rest, _, h⟩
    · exact hu
    have hu' := hout u rest u.turns u.result hu
    rcases hostOp_cases h with ⟨i, hi⟩ | ⟨v, hi, rfl⟩ | ⟨e, k, v, hi, rfl⟩ | rfl | ⟨f, rfl⟩ | ⟨c, rfl⟩
    · exact hexec i _ _ hu' hi
    · have hv := hexec _ _ _ hu' hi
      unfold pollAgain
      split
      · exact hv
      · exact hout v _ v.turns v.result hv
    · have hv := hexec _ _ _ hu' hi
      unfold checkRead
      split
      · exact hout v v.host v.turns _ hv
      · exact hv
    · exact hu'
    · exact hraise f _ hu'
    · unfold callDriver
      split
      · exact hout u _ u.turns _ hu
      · exact hraise _ _ (hout u rest u.turns _ hu)
  rcases step_cases h with ⟨ts, _, h⟩ | ⟨a, ts, _, h⟩ | ⟨a, ts, _, _, rfl⟩ | ⟨ts, _, rfl⟩
  · exact hturn _ (hout s s.host ts s.result hs) h
  · exact hseq a _ _ (hout s s.host ts s.result hs) h
  · exact hout s s.host ts s.result hs
  · exact hreset _ (hout s s.host ts s.result hs)

end Sys2Proof.Machine
end

