-- ==== Sys2Proof/Laws/PerInstr.lean ====
section
/-! SUPPORT. The per-instruction family InRow (named in LAWS.json): an instruction's canonical word is a 12-bit word in
the instruction's own row of spec/opcode_table.json (30 R80, R81, R83), and the instruction is well formed. -/

namespace Sys2Proof.Laws.InRow

/-- `encode i` has 12 bits, and agrees with the row's match on the row's mask. -/
def Statement (i : Instr) : Prop :=
  instrWellFormed i = true ∧ wordWellFormed (encode i) = true ∧ rowFits ((encode i).setWidth 12) (rowOf i) = true

theorem rdBrr : Statement .rdBrr := by unfold Statement; decide
theorem rdSr : Statement .rdSr := by unfold Statement; decide
theorem rdRsv2 : Statement .rdRsv2 := by unfold Statement; decide
theorem rdDr : Statement .rdDr := by unfold Statement; decide
theorem rdCr : Statement .rdCr := by unfold Statement; decide
theorem rdRsv5 : Statement .rdRsv5 := by unfold Statement; decide
theorem rdRsv6 : Statement .rdRsv6 := by unfold Statement; decide
theorem rdRsv7 : Statement .rdRsv7 := by unfold Statement; decide
theorem wrBrr (v : Byte) : Statement (.wrBrr v) := by unfold Statement; revert v; decide
theorem wrSr (v : Byte) : Statement (.wrSr v) := by unfold Statement; revert v; decide
theorem wrRsv2 (v : Byte) : Statement (.wrRsv2 v) := by unfold Statement; revert v; decide
theorem wrDr (v : Byte) : Statement (.wrDr v) := by unfold Statement; revert v; decide
theorem wrRsv5 (v : Byte) : Statement (.wrRsv5 v) := by unfold Statement; revert v; decide
theorem wrRsv6 (v : Byte) : Statement (.wrRsv6 v) := by unfold Statement; revert v; decide
theorem wrRsv7 (v : Byte) : Statement (.wrRsv7 v) := by unfold Statement; revert v; decide
theorem crDisable (int ea sta sto ie : Bool) : Statement (.crDisable int ea sta sto ie) := by
  unfold Statement; revert int ea sta sto ie; decide
theorem crLatch (ea sta sto ie : Bool) : Statement (.crLatch ea sta sto ie) := by
  unfold Statement; revert ea sta sto ie; decide
theorem crGoCont (ea ie : Bool) : Statement (.crGoCont ea ie) := by unfold Statement; revert ea ie; decide
theorem crGoStart (ea ie : Bool) : Statement (.crGoStart ea ie) := by unfold Statement; revert ea ie; decide
theorem crGoStop (ea ie : Bool) : Statement (.crGoStop ea ie) := by unfold Statement; revert ea ie; decide
theorem crGoStopStart (ea ie : Bool) : Statement (.crGoStopStart ea ie) := by unfold Statement; revert ea ie; decide

end Sys2Proof.Laws.InRow
end

