-- ==== Sys2Proof/Tests/Slice0.lean ====
section
/-! SUPPORT. Tests: ill-formed terms refused, a word of each constructor decoded, single steps with the results
spec/95_test_vectors.md gives (its vector is named beside each), and a witness for the hypotheses of each statement. -/

namespace Sys2Proof.Tests

open Sys2Proof Sys2Proof.Machine

/-! ## Helpers -/

/-- `Wait` with the block enabled and the flag set; DR 0x55. -/
def waiting (st : Code5) : State :=
  { State.reset with phase := .wait, crInt := true, crEn := true, status := st, dr := 0x55#8 }

/-- Enabled, in a phase without the flag. -/
def busy (p : Phase) (st : Code5) : State := { State.reset with phase := p, crEn := true, status := st }

/-- A STOP pending after a transmitted byte. -/
def stopping (x : Bool) : State := { busy (.stopping x) 0x05#5 with crSto := true }

/-- One step that performs the host access word `w`. -/
def runWord (w : HostWord) (s : State) : Host.Outcome State Fault Refusal :=
  step { s with host := [.access w], turns := [] }

/-- One step that gives the block the answer `a`. -/
def runAnswer (a : Answer) (s : State) : Host.Outcome State Fault Refusal := step { s with turns := [.bus a] }

/-- The outcome is a next state that meets `p`. -/
def ends (o : Host.Outcome State Fault Refusal) (p : State → Bool) : Bool :=
  match o with
  | .next t => p t
  | .fault _ | .refused _ => false

/-- The outcome is a next state with this phase, CR and SR, and this fault. -/
def shows (o : Host.Outcome State Fault Refusal) (p : Phase) (cr sr : Byte) (f : Option Fault) : Bool :=
  ends o fun t => t.phase == p && readCr t == cr && readSr t == sr && t.fault == f

/-- The word {W, OFF, V} of R80, bit by bit: W, OFF[2:0], V[7:0]. -/
def word12 (b : List Bool) : HostWord := BitVec.ofNat 16 (b.foldl (fun n x => 2 * n + x.toNat) 0)

/-! ## Well-formedness: an ill-formed term for each check -/

/-- R80: bit 12 set. -/
theorem test_wide_container_ill_formed : wordWellFormed 0x1000#16 = false ∧ wordWellFormed 0x0FFF#16 = true := by decide
/-- R80: such a container is refused by its name. -/
theorem test_wide_container_refused :
    (match decode 0x1CA4#16 with | .ok _ => false | .error e => e == .notAHostAccessWord 0x1CA4#16) = true := by decide
/-- R232, V7: divisor 256; V6 is the last that fits. -/
theorem test_divisor_too_large :
    callWellFormed (.initialise 2064 1) = false ∧ callWellFormed (.initialise 2063 1) = true := by decide
/-- R232, V8: `cpu < 16 × bus`; V5 is the edge. -/
theorem test_clock_too_slow :
    callWellFormed (.initialise 15 1) = false ∧ callWellFormed (.initialise 6400000 400000) = true := by decide
/-- R232, V9 and V10. -/
theorem test_bus_clock_zero :
    callWellFormed (.initialise 1000000 0) = false ∧ callWellFormed (.initialise 100000000 40000) = false := by decide
/-- R236, V17: 0x80 is no 7-bit address. -/
theorem test_address_too_wide :
    callWellFormed (.selectAddress 0x80 .write) = false ∧ callWellFormed (.selectAddress 0x7F .read) = true := by decide

/-! ## Decoding: a word of each constructor, bit by bit from R80 and R83 -/

/-- The reads: W = 0, then OFF, then a V that is ignored. -/
theorem test_decode_reads :
    [word12 ([false] ++ [false, false, false] ++ [true, false, true, false, false, false, false, true]),
      word12 ([false] ++ [false, false, true] ++ List.replicate 8 true),
      word12 ([false] ++ [false, true, false] ++ [true, false, true, false, true, false, true, true]),
      word12 ([false] ++ [false, true, true] ++ List.replicate 8 false),
      word12 ([false] ++ [true, false, false] ++ List.replicate 8 false),
      word12 ([false] ++ [true, false, true] ++ List.replicate 8 true),
      word12 ([false] ++ [true, true, false] ++ List.replicate 8 false),
      word12 ([false] ++ [true, true, true] ++ List.replicate 8 true)].map (fun w => (decode w).toOption) =
    [some .rdBrr, some .rdSr, some .rdRsv2, some .rdDr, some .rdCr, some .rdRsv5, some .rdRsv6, some .rdRsv7] := by
  decide

/-- The writes other than CR: W = 1, then OFF, then V. -/
theorem test_decode_writes :
    [word12 ([true] ++ [false, false, false] ++ [false, false, false, false, false, false, true, true]),
      word12 ([true] ++ [false, false, true] ++ [true, true, true, true, true, false, false, true]),
      word12 ([true] ++ [false, true, false] ++ List.replicate 8 true),
      word12 ([true] ++ [false, true, true] ++ [true, false, true, false, false, false, false, false]),
      word12 ([true] ++ [true, false, true] ++ List.replicate 8 false),
      word12 ([true] ++ [true, true, false] ++ [false, false, false, false, false, false, false, true]),
      word12 ([true] ++ [true, true, true] ++ [true, false, false, false, false, false, false, false])].map
      (fun w => (decode w).toOption) =
    [some (.wrBrr 0x03#8), some (.wrSr 0xF9#8), some (.wrRsv2 0xFF#8), some (.wrDr 0xA0#8), some (.wrRsv5 0x00#8),
      some (.wrRsv6 0x01#8), some (.wrRsv7 0x80#8)] := by decide

/-- The CR writes: W = 1, OFF = 100, then INT EA STA STO WC EN - IE (R82). Each operand is set alone somewhere. -/
theorem test_decode_commands :
    [word12 ([true] ++ [true, false, false] ++ [true, false, false, false, false, false, false, false]),
      word12 ([true] ++ [true, false, false] ++ [false, true, false, false, false, false, false, true]),
      word12 ([true] ++ [true, false, false] ++ [false, false, true, false, true, true, true, false]),
      word12 ([true] ++ [true, false, false] ++ [true, true, false, false, false, true, false, false]),
      word12 ([true] ++ [true, false, false] ++ [true, false, true, false, false, true, false, true]),
      word12 ([true] ++ [true, false, false] ++ [true, false, false, true, true, true, false, false]),
      word12 ([true] ++ [true, false, false] ++ [true, true, true, true, true, true, true, true])].map
      (fun w => (decode w).toOption) =
    [some (.crDisable true false false false false), some (.crDisable false true false false true),
      some (.crLatch false true false false), some (.crGoCont true false), some (.crGoStart false true),
      some (.crGoStop false false), some (.crGoStopStart true true)] := by decide

/-- `decodeTableWord` reads a table row's bits, bit 0 least significant. -/
theorem test_decode_table_word :
    decodeTableWord 16 0xCA4 = some (.crGoStart false false) ∧ decodeTableWord 16 0x400 = some .rdCr := by decide

/-- `withFetchWord` makes the word the next step's, from reset (K2). -/
theorem test_fetch_word_runs : shows (step (State.reset.withFetchWord 16 0xCA4)) (.starting false) 0x24#8 0xF8#8 none = true := by
  decide

/-! ## Register access (95 L2.2) -/

/-- A3. -/
theorem test_rd_brr : ends (runWord 0x000#16 State.reset) (·.rdata == 0x00#8) = true := by decide
/-- A1. -/
theorem test_rd_sr_reset : ends (runWord 0x100#16 State.reset) (·.rdata == 0xF8#8) = true := by decide
/-- Q23: PS is in the byte read. -/
theorem test_rd_sr_ps : ends (runWord 0x100#16 { waiting 0x05#5 with ps := 3#2 }) (·.rdata == 0x2B#8) = true := by decide
/-- A13. -/
theorem test_rd_dr : ends (runWord 0x300#16 { waiting 0x0A#5 with dr := 0x5A#8 }) (·.rdata == 0x5A#8) = true := by decide
/-- A11: any byte, and DR stays. -/
theorem test_rd_dr_shifting :
    ends (runWord 0x300#16 { busy (.sendData 0x10#8) 0x05#5 with dr := 0x10#8 }) (fun t => t.draws == 1 && t.dr == 0x10#8) =
      true := by decide
/-- A2. -/
theorem test_rd_cr_reset : ends (runWord 0x400#16 State.reset) (·.rdata == 0x00#8) = true := by decide
/-- A16. -/
theorem test_rd_cr_wait :
    ends (runWord 0x400#16 { waiting 0x01#5 with crSta := true }) (fun t => t.rdata == 0xA4#8 && t.crInt) = true := by decide
/-- A17, for each reserved offset: a draw, and nothing else but the byte returned. -/
theorem test_rd_reserved :
    [0x200#16, 0x500#16, 0x600#16, 0x700#16].all
      (fun w => ends (runWord w (waiting 0x05#5)) fun t => t.draws == 1 && { t with draws := 0, rdata := 0#8 } == waiting 0x05#5) =
      true := by decide
/-- A7. -/
theorem test_wr_brr :
    ends (runWord 0x8FF#16 (waiting 0x05#5)) (fun t => { t with brr := 0#8 } == waiting 0x05#5 && t.brr == 0xFF#8) = true := by
  decide
/-- A5. -/
theorem test_wr_sr_reset : shows (runWord 0x9FF#16 State.reset) .off 0x00#8 0xFB#8 none = true := by decide
/-- A6. -/
theorem test_wr_sr_wait : shows (runWord 0x9F9#16 (waiting 0x05#5)) .wait 0x84#8 0x29#8 none = true := by decide
/-- A9: taken, WC cleared. -/
theorem test_wr_dr_taken :
    ends (runWord 0xBA0#16 { waiting 0x01#5 with crWc := true }) (fun t => t.dr == 0xA0#8 && t.crWc == false) = true := by
  decide
/-- A10: a collision. -/
theorem test_wr_dr_collides :
    ends (runWord 0xB22#16 { busy (.sendData 0x10#8) 0x05#5 with dr := 0x10#8 }) (fun t => t.dr == 0x10#8 && t.crWc) = true := by
  decide
/-- A18, for each reserved offset. -/
theorem test_wr_reserved :
    [0xAFF#16, 0xDFF#16, 0xEFF#16, 0xFFF#16].all (fun w => ends (runWord w (waiting 0x05#5)) (· == waiting 0x05#5)) = true := by
  decide

/-! ## Commands (95 L2.3) -/

/-- K32: an owner releases the lines, and no STOP is made. -/
theorem test_disable_stopping :
    shows (runWord 0xC00#16 (stopping false)) .off 0x00#8 0xF8#8 none = true ∧
    ends (runWord 0xC00#16 (stopping false)) (·.trace == [.release]) = true := by decide
/-- K33, K34: no owner, no event. -/
theorem test_disable_not_owning :
    ends (runWord 0xC00#16 (busy (.starting false) 0x1F#5)) (fun t => t.phase == .off && t.trace == []) = true ∧
    ends (runWord 0xC00#16 (waiting 0x07#5)) (fun t => t.phase == .off && t.trace == []) = true := by decide
/-- K1. -/
theorem test_latch_enables : shows (runWord 0xC04#16 State.reset) .idle 0x04#8 0xF8#8 none = true := by decide
/-- K17: EA changes under way, the acknowledge of the byte does not. -/
theorem test_latch_during_byte :
    ends (runWord 0xC04#16 { busy (.recvData true) 0x0A#5 with crEa := true }) (fun t => t.phase == .recvData true && readCr t == 0x04#8) =
      true := by decide
/-- K7. -/
theorem test_cont_sends_address : ends (runWord 0xC84#16 { waiting 0x01#5 with dr := 0xA0#8 })
    (fun t => t.phase == .sendAddr 0xA0#8 && readCr t == 0x04#8) = true := by decide
/-- K15: the acknowledge is the EA of this write. -/
theorem test_cont_receives : shows (runWord 0xCC4#16 (waiting 0x08#5)) (.recvData true) 0x44#8 0x40#8 none = true := by decide
/-- K22: STATUS stays. -/
theorem test_start_retries : shows (runWord 0xCA4#16 (waiting 0x07#5)) (.starting false) 0x24#8 0x38#8 none = true := by decide
/-- K26: STO is forced 1. -/
theorem test_start_queued : shows (runWord 0xCA4#16 (stopping false)) (.stopping true) 0x34#8 0x28#8 none = true := by decide
/-- K24. -/
theorem test_stop_recovers :
    ends (runWord 0xC94#16 (waiting 0x00#5))
      (fun t => t.phase == .idle && readCr t == 0x04#8 && readSr t == 0xF8#8 && t.trace == [.release]) = true := by decide
/-- K9: a stop right after a START has no meaning; the fields are written and INT stays 1. -/
theorem test_stop_undefined :
    shows (runWord 0xC94#16 (waiting 0x02#5)) .wait 0x94#8 0x10#8 (some (.undefinedCommand .wait 0x02#5 false true)) = true := by
  decide
/-- K6: from idle the STOP bit is dropped. -/
theorem test_stopstart_idle : shows (runWord 0xCB4#16 (busy .idle 0x1F#5)) (.starting false) 0x24#8 0xF8#8 none = true := by decide
/-- K14. -/
theorem test_stopstart_wait : shows (runWord 0xCB4#16 (waiting 0x06#5)) (.stopping true) 0x34#8 0x30#8 none = true := by decide

/-! ## Sequencer, reset, driver (95 L2.4, L2.6, L2.7) -/

/-- Q2. -/
theorem test_repeated_start : shows (runAnswer .granted (busy (.starting true) 0x05#5)) .wait 0x84#8 0x10#8 none = true := by decide
/-- Q6: SLA+R, NACK. -/
theorem test_address_nack :
    ends (runAnswer .nack (busy (.sendAddr 0xA1#8) 0x01#5))
      (fun t => readSr t == 0x48#8 && t.crInt && t.dr == 0xA1#8 && t.trace == [.addr 0xA1#8 .nack]) = true := by decide
/-- Q14: the last byte. -/
theorem test_byte_received :
    ends (runAnswer (.byte 0xFF#8) (busy (.recvData false) 0x0A#5))
      (fun t => readSr t == 0x58#8 && t.crInt && t.dr == 0xFF#8 && t.trace == [.rxData 0xFF#8 false]) = true := by decide
/-- Q16: not admitted. -/
theorem test_no_arbitration_loss_at_ack :
    ends (runAnswer .arbLost (busy (.recvData true) 0x0A#5)) (· == busy (.recvData true) 0x0A#5) = true := by decide
/-- Q20: STO cleared, STA still reads 1, no flag. -/
theorem test_stop_then_start :
    shows (runAnswer .done { stopping true with crSta := true }) (.starting false) 0x24#8 0xF8#8 none = true := by decide
/-- X4: a reset while a STOP is pending. -/
theorem test_reset_releases :
    ends (step { stopping false with turns := [.rst] })
      (fun t => t.phase == .off && readCr t == 0x00#8 && readSr t == 0xF8#8 && t.trace == [.release]) = true := by decide
/-- E3, E4: the address byte. -/
theorem test_address_byte : selectByte 0x50 .write = 0xA0#8 ∧ selectByte 0x50 .read = 0xA1#8 ∧ selectByte 0x7F .read = 0xFF#8 := by
  decide
/-- V1 to V6: the divisor. -/
theorem test_divisor :
    divisor 16000000 400000 = 3 ∧ divisor 8000000 100000 = 8 ∧ divisor 16000000 100000 = 18 ∧ divisor 20000000 400000 = 4 ∧
    divisor 6400000 400000 = 0 ∧ divisor 2063 1 = 255 := by decide
/-- V11 to V14: a check compares SR[7:3] only. -/
theorem test_check_status :
    [(0x03#5, 0#2, 0x03#5, true), (0x03#5, 3#2, 0x03#5, true), (0x04#5, 0#2, 0x03#5, false), (0x1F#5, 0#2, 0x1F#5, true)].all
      (fun (st, ps, e, r) => ends (step { waiting st with ps := ps, host := [.check e true] }) (·.result == some r)) = true := by
  decide
/-- R212: 0xA0 goes most significant bit first, then the acknowledge low; a START falls while SCL is high. -/
theorem test_bits_on_the_bus :
    sdaLevels (.addr 0xA0#8 .ack) = [true, false, true, false, false, false, false, false, false] ∧
    sdaPulls (.rxData 0xFF#8 true) = [false, false, false, false, false, false, false, false, true] ∧
    sclHighPeriods .start = [[true, false]] ∧ sclHighPeriods .stop = [[false, true]] := by decide
/-- R7, R231, V1: the reference driver's bus clock at 16 MHz. -/
theorem test_source_bus_clock : Config.fBus = 400000 ∧ divisor 16000000 Config.fBus = 3 ∧
    callWellFormed (.initialise 16000000 Config.fBus) = true := by decide
/-- 93 S5: any byte while a START is in progress, and DR stays. -/
theorem test_rd_dr_starting :
    ends (runWord 0x300#16 { busy (.starting false) 0x1F#5 with dr := 0x10#8 }) (fun t => t.draws == 1 && t.dr == 0x10#8) = true ∧
    ends (runWord 0x300#16 { stopping false with dr := 0x10#8 }) (fun t => t.draws == 0 && t.rdata == 0x10#8) = true := by decide
/-- R35, K3, K30: irq needs EN, IE and INT, each of them. -/
theorem test_irq :
    irq { waiting 0x05#5 with crIe := true } = true ∧ irq (waiting 0x05#5) = false ∧
    ends (runWord 0xC41#16 State.reset) (fun t => !irq t) = true ∧ ends (runWord 0xC05#16 (waiting 0x05#5)) irq = true := by decide
/-- 95 L2.5: the default divider. -/
theorem test_default_divider :
    sclDivDefault 3#8 0#2 = 40 ∧ sclDivDefault 3#8 1#2 = 160 ∧ sclDivDefault 255#8 3#2 = 131584 := by decide

/-! ## Witnesses: what meets the hypotheses of each statement that has some, at each clause and boundary value -/

/-- A state whose next host operation is `op`. -/
def doing (op : HostOp) : State := { waiting 0x05#5 with host := [op] }

/-- HostNext, the premise of every statement about a host operation: no turn listed, and the host's listed before a bus turn. -/
theorem test_meets_host_next (op : HostOp) :
    HostNext (doing op) [] ∧ HostNext { doing op with turns := [.host, .bus .ack] } [.bus .ack] := ⟨.inl ⟨rfl, rfl⟩, .inr rfl⟩

/-- IgnoredBitsDoNotMatter: a read's V; V[3] and V[1] of a CR write; the widest of each. -/
theorem test_meets_ignored_bits :
    [(0x000#16, 0x0FF#16), (0x700#16, 0x7FF#16), (0xC84#16, 0xC8E#16), (0xC00#16, 0xC0A#16), (0xCFF#16, 0xCF5#16)].all
      (fun (w, w') => wordWellFormed w && wordWellFormed w' && (w != w') &&
        (!w.getLsbD 11 && w >>> 8 == w' >>> 8 || w >>> 8 == 0x00C#16 && w &&& 0xFF5#16 == w' &&& 0xFF5#16)) = true := by decide

/-- WiderContainersAreRefused: the least and the largest. -/
theorem test_meets_wider_containers :
    ([0x1000#16, 0xFFFF#16].all fun w =>
      (doing (.access w)).turns == [] && (doing (.access w)).host == [.access w] && decide (4096 ≤ w.toNat)) = true := by decide

/-- StepRunsTheDecodedInstruction: with no turn and with a host turn. -/
theorem test_meets_step_runs :
    (doing (.access 0xCA4#16)).host = [.access 0xCA4#16] ∧ decode 0xCA4#16 = .ok (.crGoStart false false) ∧
    HostNext (doing (.access 0xCA4#16)) [] ∧ HostNext { doing (.access 0xCA4#16) with turns := [.host] } [] :=
  ⟨rfl, rfl, .inl ⟨rfl, rfl⟩, .inr rfl⟩

/-- ResetTurnResetsTheBlock, and the last clause of InterruptFollowsTheFlag: an owner and a state that owns nothing. -/
theorem test_meets_reset_turn :
    ([waiting 0x05#5, busy .idle 0x1F#5].map fun s => ({ s with turns := [.rst] } : State).turns) = [[.rst], [.rst]] ∧
    owns { waiting 0x05#5 with turns := [.rst] } = true ∧ owns { busy .idle 0x1F#5 with turns := [.rst] } = false := by decide

/-- DrWriteIsTakenOnlyWhileFlagIsSet. -/
theorem test_meets_dr_write : (waiting 0x01#5).crInt = true ∧ State.reset.crInt = false := by decide

/-- DrReadIsUnspecifiedWhileShifting, first clause. -/
theorem test_meets_dr_read_shifting :
    (∀ s ∈ [busy (.starting false) 0x1F#5, busy (.starting true) 0x05#5, busy (.sendAddr 0x00#8) 0x01#5, busy (.sendData 0xFF#8) 0x05#5, busy (.recvData true) 0x0A#5, busy (.recvData false) 0x08#5],
      (∃ r, s.phase = .starting r) ∨ (∃ b, s.phase = .sendAddr b ∨ s.phase = .sendData b) ∨ ∃ a, s.phase = .recvData a) := by
  simp [busy]

/-- DrReadIsUnspecifiedWhileShifting, second clause. -/
theorem test_meets_dr_read_at_rest :
    (∀ s ∈ [State.reset, busy .idle 0x1F#5, waiting 0x07#5, stopping false, stopping true],
      s.phase = .off ∨ s.phase = .idle ∨ s.phase = .wait ∨ ∃ x, s.phase = .stopping x) := by
  simp [busy, waiting, stopping, State.reset]

/-- PlainAccessesLeaveTheSequencerAlone: no command, with a next state; its three exceptions and a read. -/
theorem test_meets_plain_accesses :
    ∀ i ∈ [Instr.wrDr 0x00#8, .wrBrr 0xFF#8, .wrSr 0x03#8, .rdCr], isCommand i = false ∧ ∃ t, exec i (waiting 0x01#5) = .next t := by
  simp [isCommand, exec, execWrDr, execWrBrr, execWrSr, execRdCr]

/-- StartFromIdleRequestsStart, StopInIdleOnlyClearsSto. -/
theorem test_meets_idle : (busy .idle 0x1F#5).phase = .idle := rfl

/-- ContAfterStartSendsAddress. -/
theorem test_meets_after_start :
    ∀ st ∈ [0x01#5, 0x02#5], (waiting st).phase = .wait ∧ (waiting st).status ∈ [0x01#5, 0x02#5] := by decide

/-- StopAfterBusErrorRecovers, ArbitrationLossIsLeftByContOrStart. -/
theorem test_meets_error_codes :
    (waiting 0x00#5).phase = .wait ∧ (waiting 0x00#5).status = 0x00#5 ∧ (waiting 0x07#5).phase = .wait ∧ (waiting 0x07#5).status = 0x07#5 := by
  decide

/-- DisableSwitchesOff: an owner and a state that owns nothing. -/
theorem test_meets_disable :
    (waiting 0x05#5).phase ≠ .off ∧ owns (waiting 0x05#5) = true ∧ (busy .idle 0x1F#5).phase ≠ .off ∧ owns (busy .idle 0x1F#5) = false := by
  decide

/-- ContAsTransmitterSendsData. -/
theorem test_meets_transmitter : ∀ st ∈ [0x03#5, 0x04#5, 0x05#5, 0x06#5],
    (waiting st).phase = .wait ∧ (waiting st).status ∈ [0x03#5, 0x04#5, 0x05#5, 0x06#5] := by decide

/-- StartAndStopWhileOwning. -/
theorem test_meets_end_transfer : ∀ st ∈ [0x03#5, 0x04#5, 0x05#5, 0x06#5, 0x09#5, 0x0B#5],
    (waiting st).phase = .wait ∧ (waiting st).status ∈ [0x03#5, 0x04#5, 0x05#5, 0x06#5, 0x09#5, 0x0B#5] := by decide

/-- ContAsReceiverReceives. -/
theorem test_meets_receiver : ∀ st ∈ [0x08#5, 0x0A#5],
    (waiting st).phase = .wait ∧ (waiting st).status ∈ [0x08#5, 0x0A#5] := by decide

/-- GoWhileStoppingQueuesStart: each go class, with a START queued and not. -/
theorem test_meets_go_while_stopping :
    (stopping false).phase = .stopping false ∧ (stopping true).phase = .stopping true ∧
    (.crGoStart true false, true, false) ∈ goClasses true false ∧ (.crGoCont false true, false, false) ∈ goClasses false true ∧
    (.crGoStop false false, false, true) ∈ goClasses false false ∧ (.crGoStopStart true true, true, true) ∈ goClasses true true := by
  decide

/-- GoDuringTransferIsFault: each phase. -/
theorem test_meets_go_during_transfer :
    (∀ s ∈ [busy (.starting false) 0x1F#5, busy (.starting true) 0x05#5, busy (.sendAddr 0xA0#8) 0x01#5,
        busy (.sendData 0x10#8) 0x05#5, busy (.recvData true) 0x0A#5],
      ((∃ r, s.phase = .starting r) ∨ (∃ b, s.phase = .sendAddr b ∨ s.phase = .sendData b) ∨ ∃ a, s.phase = .recvData a) ∧
      s.fault = none) ∧ (.crGoStop false false, false, true) ∈ goClasses false false := by
  simp [busy, State.reset, goClasses]

/-- UndefinedGoIsFault: each combination the dispatch table marks, with the go class that writes it. -/
theorem test_meets_undefined_go :
    ([(busy .idle 0x1F#5, false, false)] ++
      ([0x01#5, 0x02#5, 0x08#5, 0x0A#5].flatMap fun st =>
        [(waiting st, true, false), (waiting st, false, true), (waiting st, true, true)]) ++
      [(waiting 0x09#5, false, false), (waiting 0x0B#5, false, false), (waiting 0x07#5, false, true), (waiting 0x07#5, true, true)] ++
      [(waiting 0x00#5, false, false), (waiting 0x00#5, true, false), (waiting 0x00#5, true, true)]).all
      (fun (s, sta, sto) => undefinedRow s.phase s.status sta sto && s.fault == none &&
        (goClasses false false).any fun (_, x, y) => x == sta && y == sto) = true := by decide

/-- LatchOnlyStoresFields: its three clauses. -/
theorem test_meets_latch :
    (stopping true).phase = .stopping true ∧ State.reset.phase = .off ∧ (waiting 0x05#5).phase ≠ .off ∧
    (∀ x, (waiting 0x05#5).phase ≠ .stopping x) := by decide

/-- WriteWhileOffEnablesOrStores. -/
theorem test_meets_off :
    State.reset.phase = .off ∧
    (.crLatch true true false true, true, false) ∈ (.crLatch true true false true, true, false) :: goClasses true true ∧
    (.crGoStart true true, true, false) ∈ (.crLatch true true false true, true, false) :: goClasses true true := by decide

/-- CommandsStoreFieldsAndKeepTheRest: a disable, a latch, a go, and one that leaves a STOP pending. -/
theorem test_meets_commands :
    (∀ i ∈ [Instr.crDisable true true true true true, .crLatch true false true false, .crGoStart true true],
      isCommand i = true ∧ ∃ t, exec i (waiting 0x05#5) = .next t) ∧
    ∃ t, exec (.crGoCont false false) (stopping false) = .next t ∧ t.phase = .stopping false := by
  refine ⟨fun i hi => ?_, _, rfl, rfl⟩
  simp only [List.mem_cons, List.not_mem_nil, or_false] at hi
  rcases hi with rfl | rfl | rfl <;> exact ⟨rfl, _, rfl⟩

/-- FlagIsSetBySequencerAndClearedByHost: the flag kept, cleared by a go and by a disable, set by an answer, and not by a STOP. -/
theorem test_meets_flag :
    ends (exec .rdCr (waiting 0x05#5)) (·.crInt) = true ∧
    ends (exec (.crGoCont false false) (waiting 0x05#5)) (fun t => !t.crInt) = true ∧
    ends (exec (.crDisable true false false false false) (waiting 0x05#5)) (fun t => !t.crInt) = true ∧
    ((seqStep .ack (busy (.sendData 0x10#8) 0x05#5)).map (·.crInt)) = some true ∧
    ((seqStep .done (stopping false)).map (·.crInt)) = some false ∧
    ends (runAnswer .ack (busy (.sendData 0x10#8) 0x05#5)) (·.crInt) = true ∧ (busy (.sendData 0x10#8) 0x05#5).crInt = false ∧
    ends (runWord 0xC84#16 (waiting 0x05#5)) (fun t => !t.crInt) = true ∧
    HostNext { waiting 0x05#5 with host := [.access 0xC84#16] } [] ∧
    ends (step { waiting 0x05#5 with turns := [.rst] }) (fun t => !t.crInt) = true := by
  decide

/-- GrantedStartCompletes, AddressByteCompletes, ArbitrationLossCompletes, DataByteCompletes, ReceivedByteCompletes,
BusErrorCompletes, StopCompletesWithoutFlag: each phase with each answer these statements name. -/
theorem test_meets_answers :
    [(Phase.starting false, Answer.granted), (.starting true, .granted), (.sendAddr 0x00#8, .ack), (.sendAddr 0xFF#8, .ack),
      (.sendAddr 0xA0#8, .nack), (.sendAddr 0xA1#8, .nack), (.sendData 0x10#8, .ack), (.sendData 0x10#8, .nack),
      (.sendAddr 0xA0#8, .arbLost), (.sendData 0xFF#8, .arbLost), (.recvData false, .arbLost), (.recvData true, .arbLost)].all
      (fun (p, a) => ({ busy p 0x05#5 with turns := [.bus a] } : State).phase == p &&
        ({ busy p 0x05#5 with turns := [.bus a] } : State).turns == [.bus a]) = true ∧
    [(Phase.recvData true, Answer.byte 0x00#8), (.recvData false, .byte 0xFF#8), (.sendAddr 0xA0#8, .busError),
      (.sendData 0x00#8, .busError), (.recvData true, .busError), (.recvData false, .busError), (.stopping false, .done),
      (.stopping true, .done)].all
      (fun (p, a) => ({ busy p 0x05#5 with turns := [.bus a] } : State).phase == p &&
        ({ busy p 0x05#5 with turns := [.bus a] } : State).turns == [.bus a]) = true := by decide

/-- BusErrorCompletes, second clause: a go at the state it gives that leaves `Wait`, and one that does not (K24, K25). -/
theorem test_meets_bus_error_exit :
    (.crGoStop false false, false, true) ∈ goClasses false false ∧ (.crGoCont false false, false, false) ∈ goClasses false false ∧
    ends (exec (.crGoStop false false) (waiting 0x00#5)) (fun u => u.phase != .wait && !u.crInt) = true ∧
    ends (exec (.crGoCont false false) (waiting 0x00#5)) (fun u => u.phase == .wait && u.crInt) = true := by decide

/-- OnlyAdmittedAnswersStep: answers not admitted, in a phase with steps and in one without; and nothing to do. -/
theorem test_meets_answer_not_admitted :
    answerAdmitted (.sendAddr 0xA0#8) .granted = false ∧ answerAdmitted (.recvData true) .arbLost = false ∧
    answerAdmitted .wait .ack = false ∧ ({ waiting 0x05#5 with turns := [.bus .ack] } : State).turns = [.bus .ack] ∧
    State.reset.turns = [] ∧ State.reset.host = [] := by decide

/-- SequencerStepKeepsTheRest: a step of each kind it tells apart. -/
theorem test_meets_sequencer_step :
    (seqStep .granted (busy (.starting false) 0x1F#5)).isSome = true ∧ (seqStep .done (stopping true)).isSome = true ∧
    (seqStep .busError (busy (.recvData true) 0x0A#5)).isSome = true := by decide

/-- StepKeepsPhaseFlags, StepKeepsStatusInItsTable, StepKeepsShiftedByteInDr, StepKeepsTheBusProtocol: one state that meets
all four invariants and steps. -/
theorem test_meets_invariants :
    let s : State := { busy (.sendData 0x10#8) 0x03#5 with
      dr := 0x10#8, trace := [.start, .addr 0xA0#8 .ack], turns := [.bus .nack] }
    PhaseFlags s ∧ StatusFits s ∧ ShiftedIsDr s ∧ BusLegal s ∧ ∃ t, step s = .next t := by
  refine ⟨by decide, by decide, rfl, ⟨.transmitting, by decide⟩, _, rfl⟩

/-- StepKeepsPhaseFlags, second clause: an owner and a state that owns nothing. -/
theorem test_meets_wait_owns :
    (waiting 0x0B#5).phase = .wait ∧ owns (waiting 0x0B#5) = true ∧ (waiting 0x07#5).phase = .wait ∧ owns (waiting 0x07#5) = false := by
  decide

/-- TraceOnlyGrows: a step that adds an event, one that adds none, and each access that adds a release. -/
theorem test_meets_trace :
    ends (runAnswer .granted (busy (.starting false) 0x1F#5)) (·.trace == [.start]) = true ∧
    ends (step (doing .poll)) (·.trace == []) = true ∧
    ends (exec (.crDisable false false false false false) (waiting 0x05#5)) (·.trace == [.release]) = true ∧
    ends (exec (.crGoStop false false) (waiting 0x00#5)) (·.trace == [.release]) = true := by decide

/-- FaultIsNeverCleared, FirstFaultIsKept: a state with a fault steps, by a reset and by a second fault (X1). -/
theorem test_meets_fault :
    let s : State := { busy (.starting false) 0x1F#5 with fault := some .wideAccess }
    s.fault ≠ none ∧ ends (step { s with turns := [.rst] }) (·.fault == some .wideAccess) = true ∧
    ends (runWord 0xC84#16 s) (·.fault == some .wideAccess) = true := by decide

/-- ClockConfigurationIsNotObserved: two states that differ in BRR, PS and the byte last read. -/
theorem test_meets_same_but_clock :
    SameButClock (waiting 0x05#5) { waiting 0x05#5 with brr := 0xFF#8, ps := 3#2, rdata := 0x84#8 } ∧
    waiting 0x05#5 ≠ { waiting 0x05#5 with brr := 0xFF#8, ps := 3#2, rdata := 0x84#8 } := ⟨rfl, by decide⟩

/-- ClockConfigurationIsNotObserved, second clause: equal bytes last read, and moves that read BRR or SR and that do not. -/
theorem test_meets_clock_read :
    let s : State := doing (.access 0x400#16)
    let s' : State := { s with brr := 0xFF#8, ps := 3#2 }
    SameButClock s s' ∧ s.rdata = s'.rdata ∧ (∃ t t', step s = .next t ∧ step s' = .next t') ∧
    readsClock (.access 0x400#16) = false ∧ readsClock (.access 0x0FF#16) = true ∧ readsClock (.access 0x100#16) = true ∧
    readsClock (.check 0x03#5 true) = true ∧ readsClock .poll = false := by
  refine ⟨rfl, rfl, ⟨_, _, rfl, rfl⟩, ?_⟩
  decide

/-- ByteAccessSelectsItsOffset: the first and the last offset, and CR. -/
theorem test_meets_byte_access :
    (doing (.bus ⟨.read, Config.i2cBase + 0, 0⟩)).host = [.bus ⟨.read, Config.i2cBase + 0, 0⟩] ∧
    (doing (.bus ⟨.write 0x84#8, Config.i2cBase + 7, 0⟩)).host = [.bus ⟨.write 0x84#8, Config.i2cBase + 7, 0⟩] ∧
    (doing .poll).turns = [] ∧ decodeCr 0x84#8 = .crGoCont false false := ⟨rfl, rfl, rfl, rfl⟩

/-- WideAccessAndFetchAreFaults: a fetch at each end (X6), a wide access that only reaches in, one that starts at the last
byte, and an access just past the window. -/
theorem test_meets_wide_access :
    (∀ a ∈ [BusAccess.mk .fetch Config.i2cBase 0, ⟨.fetch, Config.i2cBase + 7, 3⟩, ⟨.read, 0, Config.i2cBase + 1⟩,
        ⟨.write 0xFF#8, Config.i2cBase + 7, 1⟩, ⟨.read, Config.i2cBase, 1⟩],
      (doing (.bus a)).turns = [] ∧ (doing (.bus a)).host = [.bus a] ∧ (doing (.bus a)).fault = none ∧
      a.addr < Config.i2cBase + 8 ∧ Config.i2cBase ≤ a.addr + a.more ∧ (a.kind = .fetch ∨ 1 ≤ a.more)) ∧
    Config.i2cBase + 8 ≤ (BusAccess.mk .read (Config.i2cBase + 8) 0).addr := by
  simp [doing, waiting, State.reset]
  omega

/-- LinesFollowThePhase: a state of each clause. -/
theorem test_meets_lines :
    State.reset.phase = .off ∧ (busy (.starting false) 0x1F#5).phase = .starting false ∧
    ((waiting 0x01#5).phase = .wait ∧ owns (waiting 0x01#5) = true) ∧ ((waiting 0x00#5).phase = .wait ∧ owns (waiting 0x00#5) = false) ∧
    (stopping true).phase = .stopping true := by decide

/-- InterruptFollowsTheFlag: X7, a STOP, and X9. -/
theorem test_meets_interrupt :
    ((seqStep .granted { busy (.starting false) 0x1F#5 with crIe := true }).map irq) = some true ∧
    PhaseFlags { stopping false with crIe := true } ∧ ((seqStep .done { stopping false with crIe := true }).map irq) = some false ∧
    irq { waiting 0x05#5 with crIe := true } = true ∧
    ends (runWord 0xC01#16 { waiting 0x05#5 with crIe := true }) (fun t => !irq t) = true := by decide

/-- DefaultDividerInvertsTheDivisor: 16 MHz and 400 kHz (E1), and the edge V5. -/
theorem test_meets_divider :
    callWellFormed (.initialise 16000000 400000) = true ∧ 8 * 400000 ∣ 16000000 ∧
    callWellFormed (.initialise 6400000 400000) = true ∧ 8 * 400000 ∣ 6400000 := by decide

/-- InitialiseSetsTheClock: both edges of the domain (V5, V6). -/
theorem test_meets_initialise :
    (doing (.call (.initialise 2063 1))).host = [.call (.initialise 2063 1)] ∧
    (∀ u ∈ (doing .poll).turns.take 3, u = .host) ∧ (∀ u ∈ [Turn.host, .host, .host, .rst].take 3, u = .host) ∧
    (1 ≤ 1 ∧ 16 * 1 ≤ 2063 ∧ 2063 / (8 * 1) - 2 ≤ 255) ∧
    (1 ≤ 400000 ∧ 16 * 400000 ≤ 6400000 ∧ 6400000 / (8 * 400000) - 2 ≤ 255) := by decide

/-- DriverCallOutsideDomainIsFault: each clause at its boundary (V7, V8, V9, V17). -/
theorem test_meets_driver_fault :
    (doing (.call (.selectAddress 0x80 .write))).host = [.call (.selectAddress 0x80 .write)] ∧
    (doing .poll).turns = [] ∧ (doing .poll).fault = none ∧ 0x80 ≤ 0x80 ∧
    (255 < 2064 / (8 * 1) - 2) ∧ 15 < 16 * 1 := by decide

/-- DriverCallsExpand: a call of each kind. -/
theorem test_meets_driver_calls :
    ∀ c ∈ [DriverCall.issueStart, .selectAddress (0x00#7).toNat .write, .selectAddress (0x7F#7).toNat .read, .sendByte 0xFF#8,
      .sendBytes [], .sendBytes [0x10#8, 0x42#8], .issueStop, .awaitCompletion, .checkStatus 0x1F#5],
      (doing (.call c)).turns = [] ∧ (doing (.call c)).host = [.call c] := by decide

/-- PollRepeatsAndCheckCompares: a poll with the flag and without it, and a check of each kind. -/
theorem test_meets_poll_and_check :
    ((doing .poll).host = [.poll] ∧ (doing .poll).crInt = true) ∧
    ({ busy .idle 0x1F#5 with host := [.poll] } : State).crInt = false ∧
    (doing (.check 0x03#5 true)).host = [.check 0x03#5 true] ∧ (doing (.check 0x05#5 false)).host = [.check 0x05#5 false] := by
  decide

end Sys2Proof.Tests
end

section
/-! PROOF. Facts about the flags, the phase and the trace (spec 10): what a CR write, an access, a sequencer step and a
host operation do to them, each said once. -/

namespace Sys2Proof.Machine

/-! ## CR writes -/

/-- `enable` changes the phase of no state in `Wait`. -/
theorem enable_phase_wait_iff (s : State) : (enable s).phase = .wait ↔ s.phase = .wait := by
  by_cases h : s.phase = .off <;> simp [h]

/-- Ownership does not depend on the fields a CR write stores. -/
@[simp] theorem owns_writeFields (ea sta sto en ie : Bool) (s : State) : owns (writeFields ea sta sto en ie s) = owns s := rfl

/-- A go write from `Wait` keeps CR.INT or clears it. -/
theorem goWait_crInt (sta sto : Bool) (s : State) :
    (goWait sta sto s).crInt = s.crInt ∨ (goWait sta sto s).crInt = false := by
  rcases goWait_cases sta sto s with ⟨_, _, _, h⟩ | ⟨_, _, _, h⟩ | ⟨_, _, _, h⟩ | ⟨_, _, _, h⟩ | ⟨_, _, _, h⟩ |
    ⟨_, _, _, h⟩ | ⟨_, _, _, h⟩ | ⟨_, _, _, h⟩ | ⟨_, _, _, h⟩ | h <;> rw [h]
  case inr.inr.inr.inr.inr.inr.inr.inr.inr => exact .inl rfl
  all_goals exact .inr rfl

/-- A go write keeps CR.INT or clears it. -/
theorem go_crInt (sta sto : Bool) (s : State) : (go sta sto s).crInt = s.crInt ∨ (go sta sto s).crInt = false := by
  rcases go_cases sta sto s with ⟨_, _, h⟩ | ⟨_, _, _, h⟩ | ⟨_, h⟩ | ⟨x, _, h⟩ | h | h <;> rw [h]
  case inr.inr.inl => exact goWait_crInt sta sto s
  all_goals exact .inl rfl

/-- No CR write sets CR.INT. -/
theorem writeCr_crInt {int ea sta sto en ie : Bool} {s : State} (h : (writeCr int ea sta sto en ie s).crInt = true) :
    s.crInt = true := by
  rcases writeCr_cases int ea sta sto en ie s with ⟨_, _, e⟩ | ⟨_, _, e⟩ | ⟨_, _, e⟩ | ⟨_, _, e⟩ <;> rw [e] at h
  · exact h
  · cases h
  · exact h
  · rcases go_crInt sta sto (enable (writeFields ea sta sto en ie s)) with e' | e' <;> rw [e'] at h
    · exact h
    · cases h

/-- A CR write stores EN. -/
@[simp] theorem writeCr_crEn (int ea sta sto en ie : Bool) (s : State) : (writeCr int ea sta sto en ie s).crEn = en := by
  rcases writeCr_cases int ea sta sto en ie s with ⟨_, _, e⟩ | ⟨_, _, e⟩ | ⟨_, _, e⟩ | ⟨_, _, e⟩ <;> rw [e]
  · rfl
  · simp
  · rfl
  · obtain ⟨_, _, _, hen, _⟩ := go_frame sta sto (enable (writeFields ea sta sto en ie s))
    simpa using hen

/-- A go write emits nothing but the `Release` of the recovery from a bus error (R136). -/
theorem go_trace (sta sto : Bool) (s : State) :
    (go sta sto s).trace = s.trace ∨
    sta = false ∧ sto = true ∧ s.phase = .wait ∧ s.status = stBusError ∧ (go sta sto s).trace = s.trace ++ [.release] := by
  rcases go_cases sta sto s with ⟨_, _, h⟩ | ⟨_, _, _, h⟩ | ⟨hp, h⟩ | ⟨x, _, h⟩ | h | h <;> rw [h]
  case inr.inr.inl =>
    rcases goWait_cases sta sto s with ⟨_, _, _, h⟩ | ⟨_, _, _, h⟩ | ⟨_, _, _, h⟩ | ⟨_, _, _, h⟩ | ⟨_, _, _, h⟩ |
      ⟨_, _, _, h⟩ | ⟨_, _, _, h⟩ | ⟨_, _, _, h⟩ | ⟨hst, hsta, hsto, h⟩ | h <;> rw [h]
    case inr.inr.inr.inr.inr.inr.inr.inr.inl => exact .inr ⟨hsta, hsto, hp, hst, rfl⟩
    all_goals exact .inl rfl
  all_goals exact .inl rfl

/-- A CR write emits nothing but the `Release` of a disable by an owner (R137) or of the recovery from a bus error. -/
theorem writeCr_trace (int ea sta sto en ie : Bool) (s : State) :
    (writeCr int ea sta sto en ie s).trace = s.trace ∨
    (en = false ∧ owns s = true ∨ en = true ∧ sta = false ∧ sto = true ∧ s.phase = .wait ∧ s.status = stBusError) ∧
      (writeCr int ea sta sto en ie s).trace = s.trace ++ [.release] := by
  rcases writeCr_cases int ea sta sto en ie s with ⟨_, _, e⟩ | ⟨hen, _, e⟩ | ⟨_, _, e⟩ | ⟨hen, _, e⟩ <;> rw [e]
  · exact .inl rfl
  · cases ho : owns s with
    | false => simp [ho]
    | true => simp [ho, hen]
  · exact .inl rfl
  · rcases go_trace sta sto (enable (writeFields ea sta sto en ie s)) with h | ⟨hsta, hsto, hp, hst, h⟩ <;> rw [h]
    · exact .inl rfl
    · exact .inr ⟨.inr ⟨hen, hsta, hsto, (enable_phase_wait_iff _).1 hp, hst⟩, rfl⟩

/-! ## Accesses -/

/-- An access that is no CR write touches nothing but CR.WC, DR, BRR, SR.PS, the byte returned and the draws (R67). -/
theorem exec_plain_form {i : Instr} {s t : State} (hi : isCommand i = false) (h : exec i s = .next t) :
    ∃ wc dr brr ps v d, t = { s with crWc := wc, dr := dr, brr := brr, ps := ps, rdata := v, draws := d } := by
  cases i
  case rdDr =>
    rcases execRdDr_cases s with ⟨_, e⟩ | ⟨_, e⟩
    · exact ⟨_, _, _, _, _, _, Host.Outcome.next.inj (h.symm.trans e)⟩
    · exact ⟨_, _, _, _, _, _, Host.Outcome.next.inj (h.symm.trans e)⟩
  case wrDr v =>
    have e := (Host.Outcome.next.inj h).symm
    split at e
    · exact ⟨_, _, _, _, _, _, e⟩
    · exact ⟨_, _, _, _, _, _, e⟩
  case crDisable | crLatch | crGoCont | crGoStart | crGoStop | crGoStopStart => cases hi
  all_goals exact ⟨_, _, _, _, _, _, (Host.Outcome.next.inj h).symm⟩

/-- A go write or a disable: the accesses that may clear CR.INT (R24). -/
abbrev ClearsFlag (i : Instr) : Prop := isGo i = true ∨ ∃ int ea sta sto ie, i = .crDisable int ea sta sto ie

/-- An access that is neither a go write nor a disable keeps CR.INT. -/
theorem exec_keeps_crInt {i : Instr} {s t : State} (hi : ¬ ClearsFlag i) (h : exec i s = .next t) : t.crInt = s.crInt := by
  cases hc : isCommand i with
  | false =>
    obtain ⟨_, _, _, _, _, _, rfl⟩ := exec_plain_form hc h
    rfl
  | true =>
    cases i
    case crLatch =>
      obtain rfl := Host.Outcome.next.inj h
      rfl
    case crDisable => exact absurd (.inr ⟨_, _, _, _, _, rfl⟩) hi
    case crGoCont | crGoStart | crGoStop | crGoStopStart => exact absurd (.inl rfl) hi
    all_goals cases hc

/-- No access sets CR.INT. -/
theorem exec_crInt {i : Instr} {s t : State} (h : exec i s = .next t) (ht : t.crInt = true) : s.crInt = true := by
  rcases exec_cases h with ⟨_, _, rfl⟩ | ⟨_, rfl⟩ | ⟨_, rfl⟩ | ⟨_, _, rfl⟩ | ⟨_, rfl⟩ | rfl | ⟨_, _, _, _, _, _, rfl⟩
  case inr.inr.inr.inr.inr.inr => exact writeCr_crInt ht
  all_goals exact ht

/-- An access emits nothing but a `Release`, by a disable of an owner or by the recovery from a bus error. -/
theorem exec_trace {i : Instr} {s t : State} (h : exec i s = .next t) :
    t.trace = s.trace ∨
    t.trace = s.trace ++ [.release] ∧
      ((∃ int ea sta sto ie, i = .crDisable int ea sta sto ie) ∧ owns s = true ∨
       (∃ ea ie, i = .crGoStop ea ie) ∧ s.phase = .wait ∧ s.status = stBusError) := by
  cases hc : isCommand i with
  | false =>
    obtain ⟨_, _, _, _, _, _, rfl⟩ := exec_plain_form hc h
    exact .inl rfl
  | true =>
    cases i
    case crLatch =>
      obtain rfl := Host.Outcome.next.inj h
      exact .inl rfl
    case crDisable | crGoStop =>
      obtain rfl := Host.Outcome.next.inj h
      exact (writeCr_trace _ _ _ _ _ _ s).imp_right fun ⟨hw, e⟩ => ⟨e, by simpa using hw⟩
    case crGoCont | crGoStart | crGoStopStart =>
      obtain rfl := Host.Outcome.next.inj h
      exact (writeCr_trace _ _ _ _ _ _ s).imp_right (by simp)
    all_goals cases hc

/-! ## Sequencer steps -/

/-- A STOP completion keeps CR.INT, and every other completion sets it. -/
theorem seqStep_crInt {a : Answer} {s t : State} (h : seqStep a s = some t) :
    (a = .done → t.crInt = s.crInt) ∧ (a ≠ .done → t.crInt = true) := by
  rcases seqStep_cases h with ⟨_, _, rfl, rfl⟩ | ⟨_, _, rfl, rfl⟩ | ⟨_, _, _, ha, rfl⟩ | ⟨_, _, _, ha, rfl⟩ |
    ⟨_, _, _, rfl, rfl⟩ | ⟨_, rfl, rfl⟩ | ⟨_, rfl, rfl⟩
  case inr.inl => exact ⟨fun _ => rfl, fun hd => absurd rfl hd⟩
  case inr.inr.inl | inr.inr.inr.inl =>
    refine ⟨fun hd => ?_, fun _ => rfl⟩
    simp [hd] at ha
  all_goals exact ⟨nofun, fun _ => rfl⟩

/-- A sequencer step emits exactly one event. -/
theorem seqStep_trace {a : Answer} {s t : State} (h : seqStep a s = some t) : ∃ e, t.trace = s.trace ++ [e] := by
  rcases seqStep_cases h with ⟨_, _, _, rfl⟩ | ⟨_, _, _, rfl⟩ | ⟨_, _, _, _, rfl⟩ | ⟨_, _, _, _, rfl⟩ |
    ⟨_, _, _, _, rfl⟩ | ⟨_, _, rfl⟩ | ⟨_, _, rfl⟩
  all_goals exact ⟨_, rfl⟩

/-! ## Operations of the host -/

/-- An access by address is, in every state alike, an access of the block, a model fault, or nothing. -/
theorem accessByAddress_form (a : BusAccess) :
    (∃ i, ∀ s, accessByAddress a s = exec i s) ∨ (∃ f, ∀ s, accessByAddress a s = .next (raise f s)) ∨
    ∀ s, accessByAddress a s = .next s := by
  unfold accessByAddress
  split
  · split
    · exact .inr (.inl ⟨_, fun _ => rfl⟩)
    · split
      · exact .inl ⟨_, fun _ => rfl⟩
      · exact .inr (.inl ⟨_, fun _ => rfl⟩)
    · split
      · exact .inl ⟨_, fun _ => rfl⟩
      · exact .inr (.inl ⟨_, fun _ => rfl⟩)
  · exact .inr (.inr fun _ => rfl)

/-- A container that decodes to nothing is refused in every state (R80). -/
theorem hostOp_access_refused {w : HostWord} {e : DecodeError} (h : decode w = .error e) (s : State) :
    hostOp (.access w) s = .refused (.notAHostAccessWord w) := by
  simp [hostOp, accessByWord, h]

/-- An operation of the host is, in every state alike, an access of the block, or it keeps CR.INT and the trace. -/
theorem hostOp_isAccess_or_keeps (op : HostOp) :
    (∃ i, ∀ s, hostOp op s = exec i s) ∨
    ∀ s t, hostOp op s = .next t → t.crInt = s.crInt ∧ t.trace = s.trace := by
  cases op with
  | access w =>
    cases hw : decode w with
    | ok i => exact .inl ⟨i, hostOp_access hw⟩
    | error _ => exact .inr fun s t h => by simp [hostOp_access_refused hw] at h
  | bus a =>
    rcases accessByAddress_form a with h | ⟨f, hf⟩ | hn
    · exact .inl h
    · refine .inr fun s t h => ?_
      obtain rfl := Host.Outcome.next.inj ((hf s).symm.trans h)
      exact ⟨rfl, rfl⟩
    · refine .inr fun s t h => ?_
      obtain rfl := Host.Outcome.next.inj ((hn s).symm.trans h)
      exact ⟨rfl, rfl⟩
  | poll =>
    refine .inr fun s t h => ?_
    obtain rfl := Host.Outcome.next.inj h
    unfold pollAgain
    split <;> exact ⟨rfl, rfl⟩
  | check e keep =>
    refine .inr fun s t h => ?_
    obtain rfl := Host.Outcome.next.inj h
    unfold checkRead
    split <;> exact ⟨rfl, rfl⟩
  | call c =>
    refine .inr fun s t h => ?_
    obtain rfl := Host.Outcome.next.inj h
    unfold callDriver
    split <;> exact ⟨rfl, rfl⟩

/-- No operation of the host sets CR.INT. -/
theorem hostOp_crInt {op : HostOp} {s t : State} (h : hostOp op s = .next t) (ht : t.crInt = true) : s.crInt = true := by
  rcases hostOp_isAccess_or_keeps op with ⟨i, hi⟩ | hk
  · exact exec_crInt ((hi s).symm.trans h) ht
  · exact (hk s t h).1 ▸ ht

/-- An operation of the host emits at most one event. -/
theorem hostOp_trace {op : HostOp} {s t : State} (h : hostOp op s = .next t) :
    t.trace = s.trace ∨ ∃ e, t.trace = s.trace ++ [e] := by
  rcases hostOp_isAccess_or_keeps op with ⟨i, hi⟩ | hk
  · exact (exec_trace ((hi s).symm.trans h)).imp_right fun ⟨e, _⟩ => ⟨_, e⟩
  · exact .inl (hk s t h).2

/-- An operation of the host that clears CR.INT is a go write or a disable. -/
theorem hostOp_clears_crInt {op : HostOp} {s t : State} (h : hostOp op s = .next t) (hs : s.crInt = true)
    (ht : t.crInt = false) : ∃ i, ClearsFlag i ∧ ∀ u, hostOp op u = exec i u := by
  rcases hostOp_isAccess_or_keeps op with ⟨i, hi⟩ | hk
  · refine ⟨i, ?_, hi⟩
    by_contra hc
    simp [exec_keeps_crInt hc ((hi s).symm.trans h), hs] at ht
  · simp [(hk s t h).1, hs] at ht

end Sys2Proof.Machine
end

section
/-! PROOF. The invariant of the phase and the flags (10 R32), operation by operation. -/

namespace Sys2Proof.Machine

/-- Ownership by phase and STATUS (R28). -/
theorem owns_iff (s : State) :
    owns s = true ↔
      s.phase = .starting true ∨ (∃ x, s.phase = .stopping x) ∨ (∃ b, s.phase = .sendAddr b ∨ s.phase = .sendData b) ∨
      (∃ a, s.phase = .recvData a) ∨ (s.phase = .wait ∧ s.status ∈ masterCodes) := by
  unfold owns
  cases s.phase <;> simp

/-- The fields stored with EN = 0 while `Off` keep the flags. -/
theorem writeFields_keeps_phaseFlags {ea sta sto ie : Bool} {s : State} (hs : PhaseFlags s) (hp : s.phase = .off) :
    PhaseFlags (writeFields ea sta sto false ie s) := by
  obtain ⟨hint, -, -⟩ := hs
  exact ⟨hint, by simp [hp], by simp [hp, stopPending]⟩

/-- The fields stored with EN = 1, and the block enabled, keep the flags. -/
theorem enable_writeFields_keeps_phaseFlags {ea sta sto ie : Bool} {s : State} (hs : PhaseFlags s) :
    PhaseFlags (enable (writeFields ea sta sto true ie s)) := by
  obtain ⟨hint, -, -⟩ := hs
  by_cases hp : s.phase = .off
  · simp_all [PhaseFlags, stopPending]
  · simp_all [PhaseFlags]

/-- A disable with EN = 0 stored ends in the flags of `Off`, from any state. -/
theorem disable_phaseFlags {s : State} (hen : s.crEn = false) : PhaseFlags (disable s) :=
  ⟨by simp, by simp [hen], by simp [stopPending]⟩

/-- A completion while enabled ends in the flags of `Wait`. -/
theorem complete_phaseFlags {code : Code5} {s : State} (hen : s.crEn = true) : PhaseFlags (complete code s) :=
  ⟨by simp, by simp [hen], by simp [stopPending]⟩

/-- Leaving `Wait` for an enabled phase keeps the flags, if CR.STO is 1 where a STOP is requested. -/
theorem leaveWait_phaseFlags {p : Phase} {s : State} (hen : s.crEn = true) (hw : p ≠ .wait) (ho : p ≠ .off)
    (hsto : stopPending p = true → s.crSto = true) : PhaseFlags (leaveWait p s) :=
  ⟨by simp [hw], by simp [hen, ho], hsto⟩

/-- A go write from `Wait` keeps the flags; it finds its STO stored (R130). -/
theorem goWait_keeps_phaseFlags {sta sto : Bool} {s : State} (hs : PhaseFlags s) (hen : s.crEn = true)
    (hsto : sto = true → s.crSto = true) : PhaseFlags (goWait sta sto s) := by
  rcases goWait_cases sta sto s with ⟨_, _, _, h⟩ | ⟨_, _, _, h⟩ | ⟨_, _, _, h⟩ | ⟨_, _, hs1, h⟩ | ⟨_, _, hs1, h⟩ |
    ⟨_, _, _, h⟩ | ⟨_, _, _, h⟩ | ⟨_, _, _, h⟩ | ⟨_, _, _, h⟩ | h <;> rw [h]
  case inr.inr.inr.inl | inr.inr.inr.inr.inl => exact leaveWait_phaseFlags hen (by simp) (by simp) fun _ => hsto hs1
  case inr.inr.inr.inr.inr.inr.inr.inr.inr => exact hs
  case inr.inr.inr.inr.inr.inr.inr.inr.inl =>
    exact ⟨by simp [recoverBusError], by simp [recoverBusError, hen], by simp [recoverBusError, stopPending]⟩
  all_goals exact leaveWait_phaseFlags hen (by simp) (by simp) (by simp [stopPending])

/-- A go write keeps the flags. -/
theorem go_keeps_phaseFlags {sta sto : Bool} {s : State} (hs : PhaseFlags s) (hen : s.crEn = true)
    (hsto : sto = true → s.crSto = true) : PhaseFlags (go sta sto s) := by
  have ⟨hint, _, hstop⟩ := hs
  rcases go_cases sta sto s with ⟨hp, _, h⟩ | ⟨hp, _, _, h⟩ | ⟨_, h⟩ | ⟨x, hp, h⟩ | h | h <;> rw [h]
  · exact ⟨by simpa [startFromIdle, hp] using hint, by simp [startFromIdle, hen], by simp [startFromIdle, stopPending]⟩
  · exact ⟨hint, by simp [stopNotOwning, hen, hp], by simp [stopNotOwning, hp, stopPending]⟩
  · exact goWait_keeps_phaseFlags hs hen hsto
  · exact ⟨by cases sta <;> simpa [goWhileStopping, hp] using hint, by cases sta <;> simp [goWhileStopping, hen],
      fun _ => hstop (by simp [hp, stopPending])⟩
  · exact hs
  · exact hs

/-- A CR write keeps the flags. -/
theorem writeCr_keeps_phaseFlags {int ea sta sto en ie : Bool} {s : State} (hs : PhaseFlags s) :
    PhaseFlags (writeCr int ea sta sto en ie s) := by
  rcases writeCr_cases int ea sta sto en ie s with ⟨rfl, hp, h⟩ | ⟨rfl, _, h⟩ | ⟨rfl, _, h⟩ | ⟨rfl, _, h⟩ <;> rw [h]
  · exact writeFields_keeps_phaseFlags hs hp
  · exact disable_phaseFlags rfl
  · exact enable_writeFields_keeps_phaseFlags hs
  · exact go_keeps_phaseFlags (enable_writeFields_keeps_phaseFlags hs) rfl (by simp_all)

/-- An access keeps the flags. -/
theorem exec_keeps_phaseFlags {i : Instr} {s t : State} (hs : PhaseFlags s) (h : exec i s = .next t) : PhaseFlags t := by
  rcases exec_cases h with ⟨_, _, rfl⟩ | ⟨_, rfl⟩ | ⟨_, rfl⟩ | ⟨_, _, rfl⟩ | ⟨_, rfl⟩ | rfl | ⟨_, _, _, _, _, _, rfl⟩
  case inr.inr.inr.inr.inr.inr => exact writeCr_keeps_phaseFlags hs
  all_goals exact hs

/-- The block is enabled in every phase but `Off`. -/
theorem PhaseFlags.crEn_of_phase_ne_off {s : State} (hs : PhaseFlags s) (hp : s.phase ≠ .off) : s.crEn = true := by
  obtain ⟨-, hen, -⟩ := hs
  simpa [hp] using hen

/-- A sequencer step keeps the flags: a STOP leaves INT 0, any other answer completes. -/
theorem seqStep_keeps_phaseFlags {a : Answer} {s t : State} (hs : PhaseFlags s) (h : seqStep a s = some t) :
    PhaseFlags t := by
  have hoff : s.phase ≠ .off := fun hp => by simp [seqStep, hp] at h
  have hen := hs.crEn_of_phase_ne_off hoff
  rcases seqStep_cases h with ⟨_, _, _, rfl⟩ | ⟨x, hp, _, rfl⟩ | ⟨_, _, _, _, rfl⟩ | ⟨_, _, _, _, rfl⟩ |
    ⟨_, _, _, _, rfl⟩ | ⟨_, _, rfl⟩ | ⟨_, _, rfl⟩
  case inr.inl =>
    obtain ⟨hint, -, -⟩ := hs
    have hint0 : s.crInt = false := by simpa [hp] using hint
    cases x <;> simp [PhaseFlags, stopDone, hint0, hen, stopPending]
  all_goals exact complete_phaseFlags hen

/-! ## The obligations on the phase, the flags and ownership -/

/-- Settles O43: every operation keeps the flags (`step_keeps`), and ownership in `Wait` is `owns_iff`. -/
theorem stepKeepsPhaseFlags : Obligations.StepKeepsPhaseFlags := by
  refine ⟨fun s t hs h => ?_, fun s hp => by simp [owns_iff, hp, masterCodes]⟩
  refine step_keeps (P := PhaseFlags) (fun _ _ _ => exec_keeps_phaseFlags) (fun _ _ _ => seqStep_keeps_phaseFlags)
    (fun s _ => ?_) (fun _ _ hs => hs) (fun _ _ _ _ hs => hs) hs h
  exact ⟨by simp, by simp, by simp [stopPending]⟩

/-- Settles O50: `owns_iff`, with the master codes written out. -/
theorem ownershipFollowsPhaseAndStatus : Obligations.OwnershipFollowsPhaseAndStatus := owns_iff

/-- Settles O7: each value is a field of `State.reset`. -/
theorem resetStateHoldsTheStatedValues : Obligations.ResetStateHoldsTheStatedValues := by
  unfold Obligations.ResetStateHoldsTheStatedValues
  decide

/-- Settles O42: at reset the phase is `Off`, where INT and EN are 0, STATUS is 0x1F, and the empty trace has the mode
`free`. -/
theorem resetMeetsTheInvariants : Obligations.ResetMeetsTheInvariants := by
  refine ⟨?_, rfl, trivial, .free, rfl, rfl⟩
  decide

end Sys2Proof.Machine
end

section
/-! PROOF. CR.INT, the interrupt request, the frame of the sequencer and the growth of the trace (10 R24, R25, R34, R35),
from what each operation does to these fields. -/

namespace Sys2Proof.Machine

/-- Settles O41: the completions write STATUS, INT, the phase, the trace and DR, and the STOP writes STO. -/
theorem sequencerStepKeepsTheRest : Obligations.SequencerStepKeepsTheRest := by
  intro a s t h
  rcases seqStep_cases h with ⟨_, _, rfl, rfl⟩ | ⟨_, _, rfl, rfl⟩ | ⟨_, _, _, ha, rfl⟩ | ⟨_, _, _, ha, rfl⟩ |
    ⟨_, _, _, rfl, rfl⟩ | ⟨_, rfl, rfl⟩ | ⟨_, rfl, rfl⟩
  · simp [startDone]
  · simp [stopDone]
  · rcases ha with ⟨rfl, rfl⟩ | ⟨rfl, rfl⟩ <;> simp [addrDone]
  · rcases ha with ⟨rfl, rfl⟩ | ⟨rfl, rfl⟩ <;> simp [txDone]
  · simp [rxDone]
  · simp [arbLostDone]
  · simp [busErrorDone]

/-- Where CR.INT rises in a step, the sequencer moved, with an answer other than a STOP's. -/
theorem step_sets_crInt {s t : State} (h : step s = .next t) (hs : s.crInt = false) (ht : t.crInt = true) :
    ∃ a ts, s.turns = .bus a :: ts ∧ a ≠ .done := by
  rcases step_cases h with ⟨ts, _, h⟩ | ⟨a, ts, hts, h⟩ | ⟨_, _, _, _, rfl⟩ | ⟨_, _, rfl⟩
  · rcases hostTurn_cases h with ⟨_, rfl⟩ | ⟨op, rest, _, h⟩
    · simp [hs] at ht
    · cases (hostOp_crInt h ht).symm.trans hs
  · refine ⟨a, ts, hts, fun ha => ?_⟩
    simp [(seqStep_crInt h).1 ha, hs] at ht
  · simp [hs] at ht
  · simp at ht

/-- Where CR.INT falls in a step, it was a reset, or the host performed a go write or a disable. -/
theorem step_clears_crInt {s t : State} (h : step s = .next t) (hs : s.crInt = true) (ht : t.crInt = false) :
    (∃ ts, s.turns = .rst :: ts) ∨
    ∃ (ts : List Turn) (op : HostOp) (rest : List HostOp) (i : Instr), HostNext s ts ∧ s.host = op :: rest ∧
      ClearsFlag i ∧ (∀ u, hostOp op u = exec i u) ∧ exec i { s with host := rest, turns := ts } = .next t := by
  rcases step_cases h with ⟨ts, hts, h⟩ | ⟨a, _, _, h⟩ | ⟨_, _, _, _, rfl⟩ | ⟨ts, hts, _⟩
  · rcases hostTurn_cases h with ⟨_, rfl⟩ | ⟨op, rest, ho, h⟩
    · simp [hs] at ht
    · obtain ⟨i, hi, hop⟩ := hostOp_clears_crInt h hs ht
      exact .inr ⟨ts, op, rest, i, hts.symm, ho, hi, hop, (hop _).symm.trans h⟩
  · obtain ⟨hdone, hother⟩ := seqStep_crInt h
    by_cases ha : a = .done
    · simp [hdone ha, hs] at ht
    · simp [hother ha] at ht
  · simp [hs] at ht
  · exact .inl ⟨ts, hts⟩

/-- Settles O32: by the accesses, the sequencer steps and the steps of the machine, each by its effect on CR.INT. -/
theorem flagIsSetBySequencerAndClearedByHost : Obligations.FlagIsSetBySequencerAndClearedByHost := by
  refine ⟨fun i s t h => ⟨exec_crInt h, fun hs ht => ?_⟩, fun _ _ _ => seqStep_crInt, fun _ _ => step_sets_crInt,
    fun _ _ => step_clears_crInt⟩
  by_contra hi
  simp [exec_keeps_crInt hi h, hs] at ht

/-- Settles O47: the sequencer and a reset append one event, an access by `exec_trace` only a `Release`. -/
theorem traceOnlyGrows : Obligations.TraceOnlyGrows := by
  refine ⟨fun s t h => ?_, fun _ _ _ => exec_trace⟩
  rcases step_cases h with ⟨ts, _, h⟩ | ⟨a, ts, _, h⟩ | ⟨_, _, _, _, rfl⟩ | ⟨ts, _, rfl⟩
  · rcases hostTurn_cases h with ⟨_, rfl⟩ | ⟨op, rest, _, h⟩
    · exact .inl rfl
    · simpa using hostOp_trace h
  · exact .inr (by simpa using seqStep_trace h)
  · exact .inl rfl
  · rw [resetBlock_trace]
    split
    · exact .inr ⟨_, rfl⟩
    · exact .inl rfl

/-- The interrupt request is the conjunction of EN, IE and INT (R35). -/
theorem irq_iff (s : State) : irq s = true ↔ s.crEn = true ∧ s.crIe = true ∧ s.crInt = true := by
  simp [irq, and_assoc]

/-- With EN = 0 there is no request. -/
theorem irq_of_disabled {s : State} (h : s.crEn = false) : irq s = false := by
  simp [irq, h]

/-- Settles O55: EN and IE are in the frame of the sequencer, INT is by `seqStep_crInt`, and a disable and a reset clear
EN. -/
theorem interruptFollowsTheFlag : Obligations.InterruptFollowsTheFlag := by
  refine ⟨irq_iff, fun line s => by simp [hostInterrupt], fun a s t h hen hie ha => ?_, fun s t hs h => ?_,
    fun s t int ea sta sto ie h => ?_, fun s t ts hts h => ?_⟩
  · obtain ⟨-, -, -, hen', hie', -⟩ := sequencerStepKeepsTheRest a s t h
    exact (irq_iff t).2 ⟨hen'.trans hen, hie'.trans hie, (seqStep_crInt h).2 ha⟩
  · obtain ⟨hint, -, -⟩ := hs
    have hp : s.phase ≠ .wait := fun hp => by simp [seqStep, hp] at h
    have hint0 : t.crInt = false := by simpa [(seqStep_crInt h).1 rfl, hp] using hint
    simp [irq, hint0]
  · obtain rfl := Host.Outcome.next.inj h
    exact irq_of_disabled (writeCr_crEn int ea sta sto false ie s)
  · have ht : step s = .next (resetBlock { s with turns := ts }) := by simp [step, hts]
    obtain rfl := Host.Outcome.next.inj (ht.symm.trans h)
    exact irq_of_disabled rfl

end Sys2Proof.Machine
end

section
/-! PROOF. Independence of the clock configuration (10 R30, 70 R297). `setClock` overwrites BRR, SR.PS and the byte last
read. Every operation of the block but a read and a write of BRR or SR and a reset commutes with it, so two states that
differ in these fields alone stay so. -/

namespace Sys2Proof.Machine

/-- `s` with another clock configuration and another byte last read. -/
def setClock (b : Byte) (p : BitVec 2) (r : Byte) (s : State) : State := { s with brr := b, ps := p, rdata := r }

section
variable (b : Byte) (p : BitVec 2) (r : Byte) (s : State)

@[simp] theorem setClock_crInt : (setClock b p r s).crInt = s.crInt := rfl
@[simp] theorem setClock_status : (setClock b p r s).status = s.status := rfl
@[simp] theorem setClock_phase : (setClock b p r s).phase = s.phase := rfl
@[simp] theorem setClock_rdata : (setClock b p r s).rdata = r := rfl
@[simp] theorem owns_setClock : owns (setClock b p r s) = owns s := rfl

/-! ## The operations that commute with `setClock` -/

theorem releaseIfOwner_setClock : releaseIfOwner (setClock b p r s) = setClock b p r (releaseIfOwner s) := by
  unfold releaseIfOwner
  rw [owns_setClock]
  split <;> rfl

theorem disable_setClock : disable (setClock b p r s) = setClock b p r (disable s) := by
  simp only [disable, releaseIfOwner_setClock]
  rfl

theorem goWait_setClock (sta sto : Bool) : goWait sta sto (setClock b p r s) = setClock b p r (goWait sta sto s) := by
  unfold goWait
  rw [setClock_status]
  split_ifs
  all_goals cases sta <;> cases sto <;> rfl

theorem go_setClock (sta sto : Bool) : go sta sto (setClock b p r s) = setClock b p r (go sta sto s) := by
  simp only [go, setClock_phase]
  cases s.phase
  case wait => exact goWait_setClock b p r s sta sto
  case idle => cases sta <;> cases sto <;> rfl
  all_goals rfl

theorem writeCr_setClock (int ea sta sto en ie : Bool) :
    writeCr int ea sta sto en ie (setClock b p r s) = setClock b p r (writeCr int ea sta sto en ie s) := by
  have hf : writeFields ea sta sto en ie (setClock b p r s) = setClock b p r (writeFields ea sta sto en ie s) := rfl
  have he : ∀ u, enable (setClock b p r u) = setClock b p r (enable u) := fun _ => rfl
  unfold writeCr
  simp only [hf, he, go_setClock, disable_setClock]
  rw [setClock_phase]
  split_ifs <;> rfl

theorem seqStep_setClock (a : Answer) : seqStep a (setClock b p r s) = (seqStep a s).map (setClock b p r) := by
  simp only [seqStep, setClock_phase]
  cases s.phase with
  | recvData ack => cases ack <;> cases a <;> rfl
  | _ => cases a <;> rfl

theorem busTurn_setClock (a : Answer) : busTurn a (setClock b p r s) = setClock b p r (busTurn a s) := by
  simp only [busTurn, seqStep_setClock]
  cases seqStep a s <;> rfl

theorem callDriver_setClock (c : DriverCall) : callDriver c (setClock b p r s) = setClock b p r (callDriver c s) := by
  unfold callDriver
  split <;> rfl

/-- A reset overwrites the clock configuration and keeps the byte last read. -/
theorem resetBlock_setClock : resetBlock (setClock b p r s) = setClock 0#8 0#2 r (resetBlock s) := by
  simp only [resetBlock, releaseIfOwner_setClock]
  rfl

end

/-! ## Two states, and two outcomes, that differ in the clock configuration -/

/-- The states differ at most in the clock configuration and the byte last read, and under `q` not in the latter. -/
def ClockTwins (q : Prop) (s t : State) : Prop := SameButClock s t ∧ (q → s.rdata = t.rdata)

/-- Both steps answer such states, or both refuse for the same reason. -/
inductive OutcomeTwins (q : Prop) : Host.Outcome State Fault Refusal → Host.Outcome State Fault Refusal → Prop
  | next {s t : State} : ClockTwins q s t → OutcomeTwins q (.next s) (.next t)
  | refused (r : Refusal) : OutcomeTwins q (.refused r) (.refused r)

section
variable {q : Prop} {s t : State}

theorem clockTwins_iff : ClockTwins q s t ↔ ∃ b p r, t = setClock b p r s ∧ (q → s.rdata = r) := by
  constructor
  · rintro ⟨h, hq⟩
    exact ⟨_, _, _, h, hq⟩
  · rintro ⟨b, p, r, rfl, hq⟩
    exact ⟨rfl, hq⟩

theorem clockTwins_setClock {b : Byte} {p : BitVec 2} {r : Byte} (hq : q → s.rdata = r) :
    ClockTwins q s (setClock b p r s) := ⟨rfl, hq⟩

/-- What commutes with `setClock` maps twins to twins; in particular it keeps the byte last read. -/
theorem ClockTwins.map {f : State → State} (hf : ∀ b p r s, f (setClock b p r s) = setClock b p r (f s))
    (h : ClockTwins q s t) : ClockTwins q (f s) (f t) := by
  obtain ⟨b, p, r, rfl, hq⟩ := clockTwins_iff.1 h
  have hkeep : f s = setClock s.brr s.ps s.rdata (f s) := hf s.brr s.ps s.rdata s
  rw [hf]
  refine clockTwins_setClock fun hqt => ?_
  rw [hkeep]
  exact hq hqt

/-- Twins that return the same byte to the host agree in the byte last read. -/
theorem returnByte_clockTwins {q' : Prop} (v : Byte) (h : ClockTwins q s t) :
    ClockTwins q' (returnByte v s) (returnByte v t) := by
  obtain ⟨b, p, r, rfl, -⟩ := clockTwins_iff.1 h
  exact clockTwins_setClock (b := b) (p := p) (r := v) fun _ => rfl

/-- So do twins that return a drawn byte: the draw does not depend on the clock configuration. -/
theorem returnFree_clockTwins {q' : Prop} (h : ClockTwins q s t) : ClockTwins q' (returnFree s) (returnFree t) := by
  obtain ⟨b, p, r, rfl, -⟩ := clockTwins_iff.1 h
  exact clockTwins_setClock (b := b) (p := p) (r := nextFree s) fun _ => rfl

/-- The host's list may be replaced in both, as its turn does before it performs an operation. -/
theorem ClockTwins.withHost (host : List HostOp) (h : ClockTwins q s t) :
    ClockTwins q { s with host := host } { t with host := host } :=
  h.map (f := fun u => { u with host := host }) fun _ _ _ _ => rfl

/-- The turns may be replaced in both, as a step does before the agent moves. -/
theorem ClockTwins.withTurns (turns : List Turn) (h : ClockTwins q s t) :
    ClockTwins q { s with turns := turns } { t with turns := turns } :=
  h.map (f := fun u => { u with turns := turns }) fun _ _ _ _ => rfl

/-- Twins have the same lists. -/
theorem ClockTwins.lists_eq (h : ClockTwins q s t) : t.host = s.host ∧ t.turns = s.turns := by
  obtain ⟨b, p, r, rfl, -⟩ := clockTwins_iff.1 h
  exact ⟨rfl, rfl⟩

/-- A reset maps twins to twins. -/
theorem resetBlock_clockTwins (h : ClockTwins q s t) : ClockTwins q (resetBlock s) (resetBlock t) := by
  obtain ⟨b, p, r, rfl, hq⟩ := clockTwins_iff.1 h
  rw [resetBlock_setClock]
  exact clockTwins_setClock (by simpa using hq)

/-! ## Accesses -/

/-- An access maps twins to twins; under `q` it may not read BRR or SR. -/
theorem exec_outcomeTwins {i : Instr} (h : ClockTwins q s t) (hi : q → i ≠ .rdBrr ∧ i ≠ .rdSr) :
    OutcomeTwins q (exec i s) (exec i t) := by
  obtain ⟨b, p, r, rfl, hq⟩ := clockTwins_iff.1 h
  cases i
  case rdBrr => exact .next (clockTwins_setClock (b := b) (p := p) (r := b) fun hqt => absurd rfl (hi hqt).1)
  case rdSr => exact .next (clockTwins_setClock (b := b) (p := p) fun hqt => absurd rfl (hi hqt).2)
  case rdCr => exact .next (returnByte_clockTwins (readCr s) h)
  case rdDr =>
    simp only [exec, execRdDr]
    rw [setClock_phase]
    split
    · exact .next (returnFree_clockTwins h)
    · exact .next (returnByte_clockTwins s.dr h)
  case rdRsv2 | rdRsv5 | rdRsv6 | rdRsv7 => exact .next (returnFree_clockTwins h)
  case wrBrr v => exact .next (clockTwins_setClock (b := v) (p := p) (r := r) hq)
  case wrSr v => exact .next (clockTwins_setClock (b := b) (p := psField v) (r := r) hq)
  case wrDr v =>
    simp only [exec, execWrDr]
    rw [setClock_crInt]
    split
    · exact .next (clockTwins_setClock (b := b) (p := p) (r := r) hq)
    · exact .next (clockTwins_setClock (b := b) (p := p) (r := r) hq)
  case wrRsv2 | wrRsv5 | wrRsv6 | wrRsv7 => exact .next h
  case crDisable | crLatch | crGoCont | crGoStart | crGoStop | crGoStopStart =>
    exact .next (h.map fun b p r s => writeCr_setClock b p r s _ _ _ _ _ _)

/-! ## Operations of the host -/

/-- A write by address is a write, so it reads neither BRR nor SR. -/
theorem decodeAccess_write_ne_read (off : Offset) (v : Byte) :
    decodeAccess true off v ≠ .rdBrr ∧ decodeAccess true off v ≠ .rdSr := by
  cases off
  case cr =>
    simp only [decodeAccess, decodeCr]
    split <;> simp
  all_goals simp [decodeAccess]

/-- The address `I2C_BASE + k` of the window selects offset `k`. -/
theorem windowOffset_base_add (k : Nat) : windowOffset (Config.i2cBase + k) = offsetOf (BitVec.ofNat 3 k) := by
  simp [windowOffset]

/-- A one-byte read of the window that is not at the offsets of BRR and SR reads neither. -/
theorem decodeAccess_read_ne_clock {a : BusAccess} (hw : touchesWindow a = true) (hk : a.kind = .read) (hm : a.more = 0)
    (hr : readsClock (.bus a) = false) :
    decodeAccess false (windowOffset a.addr) 0#8 ≠ .rdBrr ∧ decodeAccess false (windowOffset a.addr) 0#8 ≠ .rdSr := by
  simp only [touchesWindow, hm, Nat.add_zero, Bool.and_eq_true, decide_eq_true_eq] at hw
  obtain ⟨hlo, hhi⟩ := hw
  obtain ⟨k, hadd⟩ := Nat.exists_eq_add_of_le hlo
  have hk8 : k < 8 := by omega
  have hk2 : k ≠ 0 ∧ k ≠ 1 := by simpa [readsClock, hk, hm, hadd] using hr
  rw [hadd, windowOffset_base_add]
  interval_cases k <;> simp_all [offsetOf, decodeAccess]

/-- An access by address maps twins to twins; under `q` it may not read BRR or SR. -/
theorem accessByAddress_outcomeTwins {a : BusAccess} (h : ClockTwins q s t) (hr : q → readsClock (.bus a) = false) :
    OutcomeTwins q (accessByAddress a s) (accessByAddress a t) := by
  unfold accessByAddress
  split
  case isFalse => exact .next h
  case isTrue hw =>
    split
    · exact .next (h.map fun _ _ _ _ => rfl)
    · rename_i hk
      split
      · rename_i hm
        exact exec_outcomeTwins h fun hq => decodeAccess_read_ne_clock hw hk hm (hr hq)
      · exact .next (h.map fun _ _ _ _ => rfl)
    · split
      · exact exec_outcomeTwins h fun _ => decodeAccess_write_ne_read _ _
      · exact .next (h.map fun _ _ _ _ => rfl)

/-- The status field of the byte SR reads as is STATUS, whatever the prescaler. -/
theorem statusField_readSr (s : State) : statusField (readSr s) = s.status := by
  have h : ∀ (st : Code5) (ps : BitVec 2), statusField (st ++ 0#1 ++ ps) = st := by decide
  exact h s.status s.ps

/-- Twins that agree in the byte last read end a poll alike. -/
theorem pollAgain_clockTwins (h : ClockTwins True s t) : ClockTwins q (pollAgain s) (pollAgain t) := by
  obtain ⟨b, p, r, rfl, hr⟩ := clockTwins_iff.1 h
  obtain rfl := hr trivial
  unfold pollAgain
  rw [setClock_rdata]
  split
  · exact clockTwins_setClock fun _ => rfl
  · exact clockTwins_setClock (b := b) (p := p) fun _ => rfl

/-- Twins end a check alike but for the byte SR read as: the comparison is with STATUS. -/
theorem checkRead_clockTwins (e : Code5) (keep : Bool) (h : ClockTwins q s t) (hq : ¬ q) :
    ClockTwins q (checkRead e keep (returnByte (readSr s) s))
      (checkRead e keep (returnByte (readSr t) t)) := by
  obtain ⟨b, p, r, rfl, -⟩ := clockTwins_iff.1 h
  refine clockTwins_iff.2 ⟨b, p, readSr (setClock b p r s), ?_, fun h => absurd h hq⟩
  cases keep with
  | false => rfl
  | true =>
    simp only [checkRead, returnByte_rdata, statusField_readSr, if_true]
    rfl

/-- An operation of the host maps twins to twins; under `q` it may not read BRR or SR. -/
theorem hostOp_outcomeTwins {op : HostOp} (h : ClockTwins q s t) (hr : q → readsClock op = false) :
    OutcomeTwins q (hostOp op s) (hostOp op t) := by
  cases op with
  | access w =>
    cases hw : decode w with
    | ok i =>
      rw [hostOp_access hw, hostOp_access hw]
      exact exec_outcomeTwins h fun hq => by simpa [readsClock, hw, Except.toOption] using hr hq
    | error _ =>
      rw [hostOp_access_refused hw, hostOp_access_refused hw]
      exact .refused _
  | bus a => exact accessByAddress_outcomeTwins h hr
  | poll =>
    have hread : ClockTwins True (returnByte (readCr s) s) (returnByte (readCr t) t) := by
      obtain ⟨b, p, r, rfl, -⟩ := clockTwins_iff.1 h
      exact returnByte_clockTwins (readCr s) h
    exact .next (pollAgain_clockTwins hread)
  | check e keep => exact .next (checkRead_clockTwins e keep h fun hq => Bool.noConfusion (hr hq))
  | call c => exact .next (h.map fun b p r s => callDriver_setClock b p r s c)

/-! ## A step -/

/-- The host's turn maps twins to twins. -/
theorem hostTurn_outcomeTwins (h : ClockTwins q s t)
    (hr : q → ∀ op rest, s.host = op :: rest → readsClock op = false) : OutcomeTwins q (hostTurn s) (hostTurn t) := by
  obtain ⟨hhost, -⟩ := h.lists_eq
  unfold hostTurn
  rw [hhost]
  split
  · exact .next h
  · rename_i op rest ho
    exact hostOp_outcomeTwins (h.withHost rest) fun hq => hr hq op rest ho

/-- A step maps twins to twins; under `q` the host, where it moves, may not read BRR or SR. -/
theorem step_outcomeTwins (h : ClockTwins q s t)
    (hr : q → ∀ ts op rest, HostNext s ts → s.host = op :: rest → readsClock op = false) :
    OutcomeTwins q (step s) (step t) := by
  obtain ⟨-, hturns⟩ := h.lists_eq
  unfold step
  rw [hturns]
  split
  · rename_i hts
    exact hostTurn_outcomeTwins h fun hq op rest => hr hq [] op rest (.inl ⟨hts, rfl⟩)
  · rename_i ts hts
    exact hostTurn_outcomeTwins (h.withTurns ts) fun hq op rest => hr hq ts op rest (.inr hts)
  · rename_i a ts _
    exact .next ((h.withTurns ts).map fun b p r s => busTurn_setClock b p r s a)
  · exact .next (resetBlock_clockTwins (h.withTurns _))

end

/-- Settles O51: a step maps twins to twins, first with nothing asked of the byte last read, then with that byte equal. -/
theorem clockConfigurationIsNotObserved : Obligations.ClockConfigurationIsNotObserved := by
  refine ⟨fun s₁ s₂ h => ?_, fun s₁ s₂ t₁ t₂ h hr h₁ h₂ => ?_⟩
  · have htwins := step_outcomeTwins (q := False) ⟨h, False.elim⟩ False.elim
    generalize step s₁ = o₁ at htwins ⊢
    generalize step s₂ = o₂ at htwins ⊢
    cases htwins with
    | next ht => exact ht.1
    | refused r => rfl
  · by_cases hread : ∃ ts op rest, HostNext s₁ ts ∧ s₁.host = op :: rest ∧ readsClock op = true
    · exact .inr hread
    · have htwins := step_outcomeTwins (q := True) ⟨h, fun _ => hr⟩ fun _ ts op rest hn ho => by
        simpa using fun hc => hread ⟨ts, op, rest, hn, ho, hc⟩
      rw [h₁, h₂] at htwins
      cases htwins with
      | next ht => exact .inl (ht.2 trivial)

end Sys2Proof.Machine
end

section
/-! PROOF. What an access that is no CR write does (20 R67, 40), and an access by address: the register it selects, the
model fault it is, or nothing (20 R60 to R63, R72). -/

namespace Sys2Proof.Machine

/-! ## Accesses that are no CR write -/

/-- An access that is no CR write returns a byte or does nothing, or it is the write of BRR, SR or DR and changes what that
row names. -/
theorem exec_plain_cases {i : Instr} {s t : State} (hi : isCommand i = false) (h : exec i s = .next t) :
    (∃ v d, t = { s with rdata := v, draws := d }) ∨
    (∃ v, i = .wrBrr v ∧ t = { s with brr := v }) ∨
    (∃ v, i = .wrSr v ∧ t = { s with ps := psField v }) ∨
    (∃ v dr wc, i = .wrDr v ∧ t = { s with dr := dr, crWc := wc }) := by
  cases i
  case wrBrr v => exact .inr (.inl ⟨v, rfl, (Host.Outcome.next.inj h).symm⟩)
  case wrSr v => exact .inr (.inr (.inl ⟨v, rfl, (Host.Outcome.next.inj h).symm⟩))
  case wrDr v =>
    have e := (Host.Outcome.next.inj h).symm
    split at e
    · exact .inr (.inr (.inr ⟨v, v, false, rfl, e⟩))
    · exact .inr (.inr (.inr ⟨v, s.dr, true, rfl, e⟩))
  case rdDr =>
    rcases execRdDr_cases s with ⟨_, e⟩ | ⟨_, e⟩
    · exact .inl ⟨_, _, Host.Outcome.next.inj (h.symm.trans e)⟩
    · exact .inl ⟨_, _, Host.Outcome.next.inj (h.symm.trans e)⟩
  case crDisable | crLatch | crGoCont | crGoStart | crGoStop | crGoStopStart => cases hi
  all_goals exact .inl ⟨_, _, (Host.Outcome.next.inj h).symm⟩

/-- Settles O16: in each case of `exec_plain_cases` the update names none of the fields the statement keeps, unless the
access is the write that the clause leaves out. -/
theorem plainAccessesLeaveTheSequencerAlone : Obligations.PlainAccessesLeaveTheSequencerAlone := by
  intro i s t hi h
  rcases exec_plain_cases hi h with ⟨v, d, rfl⟩ | ⟨v, rfl, rfl⟩ | ⟨v, rfl, rfl⟩ | ⟨v, dr, wc, rfl, rfl⟩ <;> simp

/-! ## Accesses by address -/

/-- An access touches the window when it begins before its end and ends at its first byte or later (R60). -/
theorem touchesWindow_iff (a : BusAccess) :
    touchesWindow a = true ↔ Config.i2cBase ≤ a.addr + a.more ∧ a.addr < Config.i2cBase + 8 := by
  simp [touchesWindow]

section
variable {a : BusAccess}

/-- An access outside the window does nothing to the block (R62; assumption 10). -/
theorem accessByAddress_outside (hw : touchesWindow a = false) (s : State) : accessByAddress a s = .next s := by
  simp [accessByAddress, hw]

/-- A fetch from the window is the model fault of R72. -/
theorem accessByAddress_fetch (hw : touchesWindow a = true) (hk : a.kind = .fetch) (s : State) :
    accessByAddress a s = .next (raise .fetchFromDevice s) := by
  simp [accessByAddress, hw, hk]

/-- A read or write of the window that is wider than a byte is the model fault of R63. -/
theorem accessByAddress_wide (hw : touchesWindow a = true) (hk : a.kind ≠ .fetch) (hm : a.more ≠ 0) (s : State) :
    accessByAddress a s = .next (raise .wideAccess s) := by
  cases h : a.kind with
  | fetch => exact absurd h hk
  | read => simp [accessByAddress, hw, h, hm]
  | write v => simp [accessByAddress, hw, h, hm]

end

/-- A one-byte access at `I2C_BASE + k` touches the window for `k` up to 7 (R60). -/
theorem touchesWindow_byte (kind : AccessKind) {k : Nat} (hk : k < 8) :
    touchesWindow ⟨kind, Config.i2cBase + k, 0⟩ = true := by
  simp [touchesWindow_iff, hk]

/-- A one-byte read at `I2C_BASE + k` is the read of the register at offset `k` (R101). -/
theorem accessByAddress_read_byte {k : Nat} (hk : k < 8) (s : State) :
    accessByAddress ⟨.read, Config.i2cBase + k, 0⟩ s =
      exec (decodeAccess false (offsetOf (BitVec.ofNat 3 k)) 0#8) s := by
  simp [accessByAddress, touchesWindow_byte _ hk, windowOffset_base_add]

/-- A one-byte write at `I2C_BASE + k` is the write of the register at offset `k` (R101). -/
theorem accessByAddress_write_byte {k : Nat} (hk : k < 8) (v : Byte) (s : State) :
    accessByAddress ⟨.write v, Config.i2cBase + k, 0⟩ s =
      exec (decodeAccess true (offsetOf (BitVec.ofNat 3 k)) v) s := by
  simp [accessByAddress, touchesWindow_byte _ hk, windowOffset_base_add]

/-- A model fault is what `raise` records, where none is recorded yet (R263). -/
theorem raise_of_safe {s : State} (hs : Safe s) (f : Fault) : raise f s = { s with fault := some f } := by
  simp [raise, hs]

/-- Settles O52: each row of the table is `decodeAccess` at the offset `k`, and the access by address is that access. -/
theorem byteAccessSelectsItsOffset : Obligations.ByteAccessSelectsItsOffset := by
  intro s ts rest k v rd wr hn hrow
  have hdec : k < 8 ∧ decodeAccess false (offsetOf (BitVec.ofNat 3 k)) 0#8 = rd ∧
      decodeAccess true (offsetOf (BitVec.ofNat 3 k)) v = wr := by
    simp only [List.mem_cons, List.not_mem_nil, Prod.mk.injEq, or_false] at hrow
    rcases hrow with ⟨rfl, rfl, rfl⟩ | ⟨rfl, rfl, rfl⟩ | ⟨rfl, rfl, rfl⟩ | ⟨rfl, rfl, rfl⟩ | ⟨rfl, rfl, rfl⟩ |
      ⟨rfl, rfl, rfl⟩ | ⟨rfl, rfl, rfl⟩ | ⟨rfl, rfl, rfl⟩
    all_goals exact ⟨by decide, rfl, rfl⟩
  obtain ⟨hk, rfl, rfl⟩ := hdec
  exact ⟨fun ho => (step_of_hostNext_cons hn ho).trans (accessByAddress_read_byte hk _),
    fun ho => (step_of_hostNext_cons hn ho).trans (accessByAddress_write_byte hk v _)⟩

/-- Settles O53: the host's move is `accessByAddress`, which raises the fault inside the window and does nothing outside. -/
theorem wideAccessAndFetchAreFaults : Obligations.WideAccessAndFetchAreFaults := by
  intro s ts rest a hn ho hs
  have hstep : step s = accessByAddress a { s with host := rest, turns := ts } := step_of_hostNext_cons hn ho
  have hsafe : Safe { s with host := rest, turns := ts } := hs
  rw [hstep]
  refine ⟨fun hhi hlo => ?_, fun hout => ?_⟩
  · have hw : touchesWindow a = true := (touchesWindow_iff a).2 ⟨hlo, hhi⟩
    refine ⟨fun hk => ?_, fun hk hm => ?_⟩
    · rw [accessByAddress_fetch hw hk, raise_of_safe hsafe]
    · rw [accessByAddress_wide hw hk (Nat.one_le_iff_ne_zero.1 hm), raise_of_safe hsafe]
  · have hw : touchesWindow a = false := by
      rw [Bool.eq_false_iff, Ne, touchesWindow_iff]
      omega
    exact accessByAddress_outside hw _

end Sys2Proof.Machine
end

section
/-! PROOF. The encoding of host access words (spec 30). A word is `{W, OFF, V}`; the encoder writes, of a word that
decodes to an instruction, exactly the bits that matter, and the masks of the 21 rows are among those bits. -/

namespace Sys2Proof

/-! ## Bits and fields of a word (R80, R82) -/

theorem getLsbD_accessWord (write : Bool) (o : BitVec 3) (v : Byte) (j : Nat) :
    (accessWord write o v).getLsbD j =
      if j < 8 then v.getLsbD j else if j < 11 then o.getLsbD (j - 8) else (decide (j = 11) && write) := by
  change (0#4 ++ BitVec.ofBool write ++ o ++ v : BitVec (4 + 1 + 3 + 8)).getLsbD j = _
  simp only [BitVec.getLsbD_append, BitVec.getLsbD_ofBool, BitVec.getLsbD_zero]
  by_cases hj : j = 11
  · simp [hj]
  · grind

theorem getLsbD_crByte (int ea sta sto wc en ie : Bool) (j : Nat) :
    (crByte int ea sta sto wc en ie).getLsbD j = [ie, false, en, wc, sto, sta, ea, int].getD j false := by
  by_cases hj : j < 8
  · change (BitVec.ofBool int ++ BitVec.ofBool ea ++ BitVec.ofBool sta ++ BitVec.ofBool sto ++ BitVec.ofBool wc ++
      BitVec.ofBool en ++ 0#1 ++ BitVec.ofBool ie : BitVec (1 + 1 + 1 + 1 + 1 + 1 + 1 + 1)).getLsbD j = _
    simp only [BitVec.getLsbD_append, BitVec.getLsbD_ofBool, BitVec.getLsbD_zero]
    interval_cases j <;> simp
  · rw [BitVec.getLsbD_of_ge _ _ (by omega), List.getD_eq_default]
    simpa using hj

section

variable (write : Bool) (o : BitVec 3) (v : Byte)

@[simp] theorem wordWellFormed_accessWord : wordWellFormed (accessWord write o v) = true := by
  have h : (accessWord write o v).extractLsb' 12 4 = 0#4 := by
    ext j hj
    simp [getLsbD_accessWord, show ¬ 12 + j < 8 by omega, show ¬ 12 + j < 11 by omega, show ¬ 12 + j = 11 by omega]
  simp [wordWellFormed, h]

@[simp] theorem wordWrites_accessWord : wordWrites (accessWord write o v) = write := by
  simp only [wordWrites, getLsbD_accessWord]
  simp

@[simp] theorem wordOffset_accessWord : wordOffset (accessWord write o v) = o := by
  ext j hj
  simp [wordOffset, getLsbD_accessWord, hj, show 8 + j < 11 by omega]

@[simp] theorem wordByte_accessWord : wordByte (accessWord write o v) = v := by
  ext j hj
  simp [wordByte, getLsbD_accessWord, hj]

end

/-- The bits above bit 11 of a host access word are 0. -/
theorem getLsbD_of_wordWellFormed {w : HostWord} (h : wordWellFormed w = true) {j : Nat} (hj : 12 ≤ j) :
    w.getLsbD j = false := by
  have hz : w.extractLsb' 12 4 = 0#4 := by simpa [wordWellFormed] using h
  by_cases hj' : j < 16
  · have hb := congrArg (BitVec.getLsbD · (j - 12)) hz
    simpa [show j - 12 < 4 by omega, show 12 + (j - 12) = j by omega] using hb
  · exact BitVec.getLsbD_of_ge _ _ (by omega)

/-- A host access word is made of its fields. -/
theorem accessWord_fields {w : HostWord} (h : wordWellFormed w = true) :
    accessWord (wordWrites w) (wordOffset w) (wordByte w) = w := by
  apply BitVec.eq_of_getLsbD_eq
  intro j _
  have hhi : 12 ≤ j → w.getLsbD j = false := getLsbD_of_wordWellFormed h
  rw [getLsbD_accessWord]
  simp only [wordByte, wordOffset, wordWrites, BitVec.getLsbD_extractLsb']
  grind

/-- Words with the same fields are the same. -/
theorem accessWord_inj {write write' : Bool} {o o' : BitVec 3} {v v' : Byte}
    (h : accessWord write o v = accessWord write' o' v') : write = write' ∧ o = o' ∧ v = v' :=
  ⟨by simpa using congrArg wordWrites h, by simpa using congrArg wordOffset h, by simpa using congrArg wordByte h⟩

/-- A mask with W and OFF set masks V alone. -/
theorem accessWord_and (write : Bool) (o : BitVec 3) (v m : Byte) :
    accessWord write o v &&& accessWord true 7#3 m = accessWord write o (v &&& m) := by
  have ho (k : Nat) : (o.getLsbD k && (7#3).getLsbD k) = o.getLsbD k := by
    rw [← BitVec.getLsbD_and, show o &&& 7#3 = o from BitVec.and_allOnes]
  apply BitVec.eq_of_getLsbD_eq
  intro j _
  simp only [BitVec.getLsbD_and, getLsbD_accessWord]
  grind

@[simp] theorem offsetOf_offsetBits (off : Offset) : offsetOf (offsetBits off) = off := by
  cases off <;> rfl

@[simp] theorem offsetBits_offsetOf (o : BitVec 3) : offsetBits (offsetOf o) = o := by
  revert o
  decide

theorem offsetBits_inj {off off' : Offset} (h : offsetBits off = offsetBits off') : off = off' := by
  simpa using congrArg offsetOf h

/-- Every host access word is the word of an access. -/
theorem exists_accessWord {w : HostWord} (h : wordWellFormed w = true) :
    ∃ write off v, w = accessWord write (offsetBits off) v :=
  ⟨wordWrites w, offsetOf (wordOffset w), wordByte w, by simp [accessWord_fields h]⟩

/-! ## The encoder, then the decoder -/

/-- The word of an access decodes to that access. -/
theorem decode_accessWord (write : Bool) (off : Offset) (v : Byte) :
    decode (accessWord write (offsetBits off) v) = .ok (decodeAccess write off v) := by
  simp [decode]

/-- Settles O1: each canonical word is the word of an access, and a CR byte's bits name its class (R83). -/
theorem decodeOfEncodeIsTheInstruction : Obligations.DecodeOfEncodeIsTheInstruction := by
  intro i
  cases i
  case crDisable | crLatch | crGoCont | crGoStart | crGoStop | crGoStopStart =>
    refine (decode_accessWord true .cr _).trans ?_
    simp only [decodeAccess, decodeCr, getLsbD_crByte]
    rfl
  all_goals exact decode_accessWord _ _ _

/-! ## The bits that matter, and the decoder, then the encoder -/

/-- The bits of V that an access reads (R80, R83): none of a read, all but V[3] and V[1] of a CR write. -/
def usedBits : Bool → Offset → Byte
  | false, _   => 0x00#8
  | true,  .cr => 0xF5#8
  | true,  _   => 0xFF#8

/-- The bits of a word that matter: W, OFF, and those of V. -/
def usedMask : Bool → Offset → HostWord
  | false, _   => 0xF00#16
  | true,  .cr => 0xFF5#16
  | true,  _   => 0xFFF#16

theorem usedMask_eq (write : Bool) (off : Offset) : usedMask write off = accessWord true 7#3 (usedBits write off) := by
  revert write
  cases off <;> decide

/-- A CR byte without its ignored bits, from its fields. -/
theorem and_eq_crByte (v : Byte) :
    v &&& 0xF5#8 =
      crByte (v.getLsbD 7) (v.getLsbD 6) (v.getLsbD 5) (v.getLsbD 4) false (v.getLsbD 2) (v.getLsbD 0) := by
  apply BitVec.eq_of_getLsbD_eq
  intro j hj
  rw [getLsbD_crByte]
  interval_cases j <;> simp

theorem encode_decodeCr (v : Byte) : encode (decodeCr v) = accessWord true (offsetBits .cr) (v &&& 0xF5#8) := by
  rw [and_eq_crByte]
  simp only [decodeCr]
  split <;> simp_all only [encode]

/-- Encoding what an access decodes to clears the bits of its word that do not matter. -/
theorem encode_decodeAccess (write : Bool) (off : Offset) (v : Byte) :
    encode (decodeAccess write off v) = accessWord write (offsetBits off) v &&& usedMask write off := by
  rw [usedMask_eq, accessWord_and]
  cases write with
  | false => cases off <;> simp [decodeAccess, encode, usedBits]
  | true =>
    have hall : v &&& 0xFF#8 = v := BitVec.and_allOnes
    cases off
    case cr => exact encode_decodeCr v
    all_goals simp [decodeAccess, encode, usedBits, hall]

/-- A word decodes as it does without the bits that do not matter. -/
theorem decode_and_usedMask (write : Bool) (off : Offset) (v : Byte) :
    decode (accessWord write (offsetBits off) v &&& usedMask write off) =
      decode (accessWord write (offsetBits off) v) := by
  rw [← encode_decodeAccess, decodeOfEncodeIsTheInstruction, decode_accessWord]

/-- A word that agrees with the word of an access on the bits that matter of that access decodes alike. -/
theorem decode_congr {write : Bool} {off : Offset} {v : Byte} {w : HostWord} (hw : wordWellFormed w = true)
    (h : accessWord write (offsetBits off) v &&& usedMask write off = w &&& usedMask write off) :
    decode (accessWord write (offsetBits off) v) = decode w := by
  obtain ⟨write', off', v', rfl⟩ := exists_accessWord hw
  have hfields := h
  rw [usedMask_eq, accessWord_and, accessWord_and] at hfields
  obtain ⟨rfl, hoff, -⟩ := accessWord_inj hfields
  obtain rfl := offsetBits_inj hoff
  rw [← decode_and_usedMask, h, decode_and_usedMask]

/-! ## Ignored bits (R80, R83, R87) -/

/-- W and OFF, by the shift that drops V. -/
theorem and_head_eq_shift (w : HostWord) : w &&& 0x0F00#16 = (w >>> 8) <<< 8 &&& 0x0F00#16 := by
  rw [BitVec.shiftLeft_ushiftRight, BitVec.and_assoc]
  rfl

/-- A word whose W and OFF are those of a CR write is one. -/
theorem cr_of_shift {write : Bool} {off : Offset} {v : Byte}
    (h : accessWord write (offsetBits off) v >>> 8 = 0x00C#16) : write = true ∧ off = .cr := by
  have hhead := and_head_eq_shift (accessWord write (offsetBits off) v)
  rw [h, show 0x0F00#16 = accessWord true 7#3 0#8 by decide, accessWord_and,
    show 0x00C#16 <<< 8 &&& accessWord true 7#3 0#8 = accessWord true (offsetBits .cr) 0#8 by decide] at hhead
  obtain ⟨hwrite, hoff, -⟩ := accessWord_inj hhead
  exact ⟨hwrite, offsetBits_inj hoff⟩

/-- Settles O3: in both cases the two words agree on the bits that matter. -/
theorem ignoredBitsDoNotMatter : Obligations.IgnoredBitsDoNotMatter := by
  intro w w' hw hw' h
  obtain ⟨write, off, v, rfl⟩ := exists_accessWord hw
  apply decode_congr hw'
  rcases h with ⟨hread, hhead⟩ | ⟨hhead, hused⟩
  · obtain rfl : write = false := (wordWrites_accessWord write _ v).symm.trans hread
    change _ &&& 0x0F00#16 = _ &&& 0x0F00#16
    rw [and_head_eq_shift, hhead, ← and_head_eq_shift]
  · obtain ⟨rfl, rfl⟩ := cr_of_shift hhead
    exact hused

/-! ## The rows (R81) -/

/-- The canonical word of every instruction is in the row of the instruction. -/
theorem encode_inRow : ∀ i, Laws.InRow.Statement i
  | .rdBrr => Laws.InRow.rdBrr
  | .rdSr => Laws.InRow.rdSr
  | .rdRsv2 => Laws.InRow.rdRsv2
  | .rdDr => Laws.InRow.rdDr
  | .rdCr => Laws.InRow.rdCr
  | .rdRsv5 => Laws.InRow.rdRsv5
  | .rdRsv6 => Laws.InRow.rdRsv6
  | .rdRsv7 => Laws.InRow.rdRsv7
  | .wrBrr v => Laws.InRow.wrBrr v
  | .wrSr v => Laws.InRow.wrSr v
  | .wrRsv2 v => Laws.InRow.wrRsv2 v
  | .wrDr v => Laws.InRow.wrDr v
  | .wrRsv5 v => Laws.InRow.wrRsv5 v
  | .wrRsv6 v => Laws.InRow.wrRsv6 v
  | .wrRsv7 v => Laws.InRow.wrRsv7 v
  | .crDisable int ea sta sto ie => Laws.InRow.crDisable int ea sta sto ie
  | .crLatch ea sta sto ie => Laws.InRow.crLatch ea sta sto ie
  | .crGoCont ea ie => Laws.InRow.crGoCont ea ie
  | .crGoStart ea ie => Laws.InRow.crGoStart ea ie
  | .crGoStop ea ie => Laws.InRow.crGoStop ea ie
  | .crGoStopStart ea ie => Laws.InRow.crGoStopStart ea ie

theorem rowFits_iff {w : BitVec 12} {r : Row} : rowFits w r = true ↔ w &&& r.mask = r.bits := by
  simp [rowFits]

/-- The row of an access looks at bits that matter only. -/
theorem rowOf_mask_used (write : Bool) (off : Offset) (v : Byte) :
    (usedMask write off).setWidth 12 &&& (rowOf (decodeAccess write off v)).mask =
      (rowOf (decodeAccess write off v)).mask := by
  cases write with
  | false => cases off <;> simp [usedMask, decodeAccess, rowOf]
  | true =>
    cases off
    case cr =>
      simp only [decodeAccess, decodeCr]
      split <;> simp [usedMask, rowOf]
    all_goals simp [usedMask, decodeAccess, rowOf]

/-- The word of an access is in the row of the access: it agrees there with the canonical word. -/
theorem rowFits_rowOf_decodeAccess (write : Bool) (off : Offset) (v : Byte) :
    rowFits ((accessWord write (offsetBits off) v).setWidth 12) (rowOf (decodeAccess write off v)) = true := by
  obtain ⟨-, -, hcanon⟩ := encode_inRow (decodeAccess write off v)
  rw [rowFits_iff, encode_decodeAccess, BitVec.setWidth_and, BitVec.and_assoc, rowOf_mask_used] at hcanon
  exact rowFits_iff.2 hcanon

/-- `opcodeTable` has the row of every instruction. -/
theorem rowOf_mem_opcodeTable (i : Instr) : rowOf i ∈ opcodeTable := by
  cases i
  all_goals
    simp only [rowOf]
    decide

/-- Two different rows ask for different values of a bit that both look at. -/
theorem opcodeTable_disjoint :
    ∀ r ∈ opcodeTable, ∀ r' ∈ opcodeTable, r.bits &&& r'.mask = r'.bits &&& r.mask → r = r' := by
  decide

/-- A word is in at most one row. -/
theorem row_unique {w : BitVec 12} {r r' : Row} (hr : r ∈ opcodeTable) (hr' : r' ∈ opcodeTable)
    (h : rowFits w r = true) (h' : rowFits w r' = true) : r = r' := by
  apply opcodeTable_disjoint r hr r' hr'
  rw [← rowFits_iff.1 h, ← rowFits_iff.1 h', BitVec.and_assoc, BitVec.and_assoc, BitVec.and_comm r.mask]

theorem opcodeTable_nodup : opcodeTable.Nodup := by
  decide

/-- The rows that a word is in are the one row it is in. -/
theorem filter_rowFits {w : BitVec 12} {r : Row} (hr : r ∈ opcodeTable) (h : rowFits w r = true) :
    opcodeTable.filter (rowFits w) = [r] := by
  have hfits : ∀ r' ∈ opcodeTable, rowFits w r' = (r' == r) := fun r' hr' =>
    Bool.eq_iff_iff.2 ⟨fun h' => beq_iff_eq.2 (row_unique hr' hr h' h), fun e => beq_iff_eq.1 e ▸ h⟩
  rw [List.filter_congr hfits, List.filter_beq, List.count_eq_one_of_mem opcodeTable_nodup hr]
  rfl

/-- A 12-bit word in its container is a host access word. -/
theorem wordWellFormed_setWidth (w : BitVec 12) : wordWellFormed (w.setWidth 16) = true := by
  have h : (w.setWidth 16).extractLsb' 12 4 = 0#4 := by
    ext j hj
    simp
  simp [wordWellFormed, h]

/-- Settles O2: the word is that of an access, whose row it is in, and no word is in two rows. -/
theorem everyWordIsInExactlyOneRow : Obligations.EveryWordIsInExactlyOneRow := by
  intro w
  obtain ⟨write, off, v, hw⟩ := exists_accessWord (wordWellFormed_setWidth w)
  have hback : w = (accessWord write (offsetBits off) v).setWidth 12 := by simp [← hw]
  refine ⟨decodeAccess write off v, ?_, filter_rowFits (rowOf_mem_opcodeTable _) ?_⟩
  · rw [hw, decode_accessWord]
  · rw [hback]
    exact rowFits_rowOf_decodeAccess write off v

/-! ## The words of the spec's table -/

/-- Settles O4: each word is decoded. -/
theorem specWordsDecodeToTheirRows : Obligations.SpecWordsDecodeToTheirRows :=
  ⟨rfl, rfl, rfl, rfl, rfl, rfl, rfl, rfl, rfl, rfl, rfl, rfl, rfl, rfl⟩

end Sys2Proof
end

section
/-! PROOF. The byte being transmitted stays in DR (40 R106; 41 R135, R138): a go write starts to shift the byte that is in
DR, DR is written only while CR.INT is 1, which is in `Wait`, and a completion ends the transfer. -/

namespace Sys2Proof.Machine

/-- The invariant speaks of the two transmitting phases alone. -/
theorem shiftedIsDr_iff (s : State) :
    ShiftedIsDr s ↔ ∀ b, s.phase = .sendAddr b ∨ s.phase = .sendData b → s.dr = b := by
  cases hp : s.phase <;> simp [ShiftedIsDr, hp]

/-- In `Wait` nothing is shifted. -/
theorem shiftedIsDr_of_wait {s : State} (hp : s.phase = .wait) : ShiftedIsDr s := by
  simp [shiftedIsDr_iff, hp]

/-- Storing the fields of a CR write and enabling the block enters no transfer and keeps DR. -/
theorem enable_writeFields_keeps_shiftedIsDr {ea sta sto en ie : Bool} {s : State} (hs : ShiftedIsDr s) :
    ShiftedIsDr (enable (writeFields ea sta sto en ie s)) := by
  rw [shiftedIsDr_iff] at hs ⊢
  by_cases hp : s.phase = .off
  · simp [hp]
  · simpa [hp] using hs

/-- A go write from `Wait` that starts a transmission shifts the byte in DR (R135, R138); the others start none. -/
theorem goWait_keeps_shiftedIsDr {sta sto : Bool} {s : State} (hs : ShiftedIsDr s) :
    ShiftedIsDr (goWait sta sto s) := by
  rcases goWait_cases sta sto s with ⟨_, _, _, h⟩ | ⟨_, _, _, h⟩ | ⟨_, _, _, h⟩ | ⟨_, _, _, h⟩ | ⟨_, _, _, h⟩ |
    ⟨_, _, _, h⟩ | ⟨_, _, _, h⟩ | ⟨_, _, _, h⟩ | ⟨_, _, _, h⟩ | h <;> rw [h]
  case inl => simp [ShiftedIsDr, sendAddress]
  case inr.inl => simp [ShiftedIsDr, sendDataByte]
  case inr.inr.inr.inr.inr.inr.inr.inr.inr => exact hs
  all_goals exact trivial

/-- A go write keeps the byte; outside `Wait` it starts no transmission. -/
theorem go_keeps_shiftedIsDr {sta sto : Bool} {s : State} (hs : ShiftedIsDr s) : ShiftedIsDr (go sta sto s) := by
  rcases go_cases sta sto s with ⟨_, _, h⟩ | ⟨_, _, _, h⟩ | ⟨_, h⟩ | ⟨x, _, h⟩ | h | h <;> rw [h]
  case inl => exact trivial
  case inr.inr.inl => exact goWait_keeps_shiftedIsDr hs
  case inr.inr.inr.inl => cases sta <;> exact trivial
  all_goals exact hs

/-- A CR write keeps the byte. -/
theorem writeCr_keeps_shiftedIsDr {int ea sta sto en ie : Bool} {s : State} (hs : ShiftedIsDr s) :
    ShiftedIsDr (writeCr int ea sta sto en ie s) := by
  rcases writeCr_cases int ea sta sto en ie s with ⟨_, _, h⟩ | ⟨_, _, h⟩ | ⟨_, _, h⟩ | ⟨_, _, h⟩ <;> rw [h]
  · exact hs
  · exact trivial
  · exact enable_writeFields_keeps_shiftedIsDr hs
  · exact go_keeps_shiftedIsDr (enable_writeFields_keeps_shiftedIsDr hs)

/-- An access keeps the byte: a write of DR is taken only with CR.INT = 1, so in `Wait` (R32, R106). -/
theorem exec_keeps_shiftedIsDr {i : Instr} {s t : State} (hf : PhaseFlags s) (hs : ShiftedIsDr s)
    (h : exec i s = .next t) : ShiftedIsDr t := by
  rcases exec_cases h with ⟨_, _, rfl⟩ | ⟨_, rfl⟩ | ⟨_, rfl⟩ | ⟨hint, v, rfl⟩ | ⟨_, rfl⟩ | rfl | ⟨_, _, _, _, _, _, rfl⟩
  case inr.inr.inr.inl =>
    obtain ⟨hwait, -, -⟩ := hf
    exact shiftedIsDr_of_wait (hwait.1 hint)
  case inr.inr.inr.inr.inr.inr => exact writeCr_keeps_shiftedIsDr hs
  all_goals exact hs

/-- After a sequencer step nothing is transmitted: a completion ends in `Wait`, a STOP in `Idle` or `Starting`. -/
theorem seqStep_shiftedIsDr {a : Answer} {s t : State} (h : seqStep a s = some t) : ShiftedIsDr t := by
  rcases seqStep_cases h with ⟨_, _, _, rfl⟩ | ⟨x, _, _, rfl⟩ | ⟨_, _, _, _, rfl⟩ | ⟨_, _, _, _, rfl⟩ |
    ⟨_, _, _, _, rfl⟩ | ⟨_, _, rfl⟩ | ⟨_, _, rfl⟩
  case inr.inl => cases x <;> exact trivial
  all_goals exact shiftedIsDr_of_wait rfl

/-- Settles O45: every operation keeps the byte together with the flags (`step_keeps`). -/
theorem stepKeepsShiftedByteInDr : Obligations.StepKeepsShiftedByteInDr := by
  intro s t hf hs h
  refine (step_keeps (P := fun u => PhaseFlags u ∧ ShiftedIsDr u) ?_ ?_ ?_ (fun _ _ hu => hu) (fun _ _ _ _ hu => hu)
    ⟨hf, hs⟩ h).2
  · exact fun i u v ⟨hfu, hsu⟩ hv => ⟨exec_keeps_phaseFlags hfu hv, exec_keeps_shiftedIsDr hfu hsu hv⟩
  · exact fun a u v ⟨hfu, _⟩ hv => ⟨seqStep_keeps_phaseFlags hfu hv, seqStep_shiftedIsDr hv⟩
  · exact fun u _ => ⟨⟨by simp, by simp, by simp [stopPending]⟩, trivial⟩

end Sys2Proof.Machine
end

section
/-! PROOF. The reads and writes of the four registers, each by its value and its frame (40 R102 to R108). -/

namespace Sys2Proof.Machine

/-- Settles O9: each access is its meaning, and BRR is a field of `State.reset`. -/
theorem brrReadsAsWritten : Obligations.BrrReadsAsWritten := ⟨fun _ => rfl, fun _ _ => rfl, rfl⟩

/-- The prescaler of a byte does not depend on its bits 7 to 2 (R105). -/
theorem psField_and_three (v : Byte) : psField (v &&& 0x03#8) = psField v := by
  have hmask : (0x03#8).extractLsb' 0 2 = BitVec.allOnes 2 := rfl
  rw [psField, BitVec.extractLsb'_and, hmask, BitVec.and_allOnes, psField]

/-- A write of SR stores the prescaler of its byte and nothing else. -/
theorem exec_wrSr (v : Byte) (s : State) : exec (.wrSr v) s = .next { s with ps := psField v } := rfl

/-- Settles O10: a write of SR is by its prescaler field, which `V & 0x03` keeps. -/
theorem srWriteChangesOnlyThePrescaler : Obligations.SrWriteChangesOnlyThePrescaler :=
  ⟨fun _ => rfl, fun s v => ⟨exec_wrSr v s, by rw [exec_wrSr, exec_wrSr, psField_and_three]⟩⟩

/-- Settles O11: the branches of the write are the two values of CR.INT. -/
theorem drWriteIsTakenOnlyWhileFlagIsSet : Obligations.DrWriteIsTakenOnlyWhileFlagIsSet :=
  fun _ _ => ⟨fun h => by simp [exec, execWrDr, h], fun h => by simp [exec, execWrDr, h]⟩

/-- The phases in which a START or a byte is in progress (R107, 93 S5). -/
theorem drUnspecified_iff (p : Phase) :
    drUnspecified p = true ↔
      (∃ r, p = .starting r) ∨ (∃ b, p = .sendAddr b ∨ p = .sendData b) ∨ ∃ a, p = .recvData a := by
  cases p <;> simp [drUnspecified, shifting]

/-- Settles O12: `drUnspecified` holds in the phases of the first clause and in none of the second. -/
theorem drReadIsUnspecifiedWhileShifting : Obligations.DrReadIsUnspecifiedWhileShifting := by
  refine fun s => ⟨fun hp => ?_, fun hp => ?_⟩
  · have hu : drUnspecified s.phase = true := (drUnspecified_iff _).2 hp
    simp [exec, execRdDr, hu, returnFree, nextFree]
  · have hu : drUnspecified s.phase = false := by
      rcases hp with hp | hp | hp | ⟨x, hp⟩ <;> rw [hp] <;> rfl
    simp [exec, execRdDr, hu, returnByte]

/-- Settles O13: the byte is `readCr`, whose bits `getLsbD_crByte` gives. -/
theorem crReadReturnsItsFields : Obligations.CrReadReturnsItsFields := by
  intro s
  have hbit (j : Nat) : (readCr s).getLsbD j =
      [s.crIe, false, s.crEn, s.crWc, s.crSto, s.crSta, s.crEa, s.crInt].getD j false :=
    getLsbD_crByte _ _ _ _ _ _ _ j
  exact ⟨readCr s, rfl, hbit 7, hbit 6, hbit 5, hbit 4, hbit 3, hbit 2, hbit 1, hbit 0⟩

end Sys2Proof.Machine
end

section
/-! PROOF. The CR writes (spec 41). First what a write does before any go: it stores its fields, enables or disables.
Then the go writes, one lemma per row of the dispatch table (R132), and the statements read off their rows. -/

namespace Sys2Proof.Machine

section
variable {int ea sta sto en ie : Bool} {i : Instr} {s : State}

/-! ## The fields, the enable and the disable (R130, R137) -/

/-- `s` with the fields of a CR write as they are written, STO among them. -/
def stored (ea sta sto en ie : Bool) (s : State) : State :=
  { s with crEa := ea, crSta := sta, crSto := sto, crEn := en, crIe := ie }

@[simp] theorem stored_phase : (stored ea sta sto en ie s).phase = s.phase := rfl
@[simp] theorem stored_status : (stored ea sta sto en ie s).status = s.status := rfl

/-- With no STOP pending, a CR write stores its fields as they are written. -/
theorem writeFields_of_not_stopPending (h : stopPending s.phase = false) :
    writeFields ea sta sto en ie s = stored ea sta sto en ie s := by
  simp [writeFields, stored, h]

/-- With a STOP pending, it stores STO = 1. -/
theorem writeFields_of_stopPending (h : stopPending s.phase = true) :
    writeFields ea sta sto en ie s = stored ea sta true en ie s := by
  simp [writeFields, stored, h]

theorem stopPending_eq_true_iff (p : Phase) : stopPending p = true ↔ ∃ x, p = .stopping x := by
  cases p <;> simp [stopPending]

/-- An enabled block is not changed by `enable`. -/
theorem enable_of_phase_ne_off (h : s.phase ≠ .off) : enable s = s := by
  simp [enable, h]

theorem enable_of_phase_off (h : s.phase = .off) : enable s = { s with phase := .idle } := by
  simp [enable, h]

/-- A disable is its fields and, of an owner, a `Release` (R137). -/
theorem disable_eq (s : State) :
    disable s = { s with
      crInt := false, crSto := false, status := 0x1F#5
      trace := if owns s then s.trace ++ [.release] else s.trace, phase := .off } := by
  rw [disable, releaseIfOwner_eq]
  rfl

/-- A CR write with EN = 0 outside `Off` disables. -/
theorem writeCr_disable (hp : s.phase ≠ .off) :
    writeCr int ea sta sto false ie s = disable (writeFields ea sta sto false ie s) := by
  simp [writeCr, hp]

/-- A CR write with EN = 0 in `Off` stores its fields. -/
theorem writeCr_disable_of_off (hp : s.phase = .off) :
    writeCr int ea sta sto false ie s = stored ea sta sto false ie s := by
  have hstop : stopPending s.phase = false := by rw [hp]; rfl
  exact (if_pos hp).trans (writeFields_of_not_stopPending hstop)

/-- A CR write with EN = 1 and INT = 0 stores its fields and enables the block (R148, R149). -/
theorem writeCr_latch (s : State) :
    writeCr false ea sta sto true ie s = enable (writeFields ea sta sto true ie s) := rfl

/-- A CR write with EN = 1 does in `Off` what it does in `Idle`: its first act is to enable the block (R149). -/
theorem writeCr_enabling_of_off (hp : s.phase = .off) :
    writeCr int ea sta sto true ie s = writeCr int ea sta sto true ie { s with phase := .idle } := by
  have henable : enable (writeFields ea sta sto true ie s) =
      enable (writeFields ea sta sto true ie { s with phase := .idle }) := by
    simp [enable, writeFields, hp, stopPending]
  simp only [writeCr, henable, if_true]

/-! ## The instructions as CR writes (R83) -/

/-- A go class is the CR write with EN = 1, INT = 1 and its STA and STO. -/
theorem exec_goClass (hi : (i, sta, sto) ∈ goClasses ea ie) (s : State) :
    exec i s = .next (writeCr true ea sta sto true ie s) := by
  simp only [goClasses, List.mem_cons, List.not_mem_nil, Prod.mk.injEq, or_false] at hi
  rcases hi with ⟨rfl, rfl, rfl⟩ | ⟨rfl, rfl, rfl⟩ | ⟨rfl, rfl, rfl⟩ | ⟨rfl, rfl, rfl⟩
  all_goals rfl

/-- A latch or a go class is a CR write with EN = 1. -/
theorem exec_enabling (hi : (i, sta, sto) ∈ (.crLatch ea sta sto ie, sta, sto) :: goClasses ea ie) :
    ∃ int, ∀ s, exec i s = .next (writeCr int ea sta sto true ie s) := by
  rcases List.mem_cons.1 hi with hlatch | hgo
  · obtain ⟨rfl, -⟩ := Prod.mk.inj hlatch
    exact ⟨false, fun _ => rfl⟩
  · exact ⟨true, exec_goClass hgo⟩

/-- Every command is a CR write. -/
theorem exec_command (hi : isCommand i = true) :
    ∃ int ea sta sto en ie, ∀ s, exec i s = .next (writeCr int ea sta sto en ie s) := by
  cases i
  case crDisable | crLatch | crGoCont | crGoStart | crGoStop | crGoStopStart =>
    exact ⟨_, _, _, _, _, _, fun _ => rfl⟩
  all_goals cases hi

/-! ## The go writes by phase -/

/-- A go write of an enabled block with no STOP pending: the fields are stored, then the dispatch. -/
theorem writeCr_go (hoff : s.phase ≠ .off) (hstop : stopPending s.phase = false) :
    writeCr true ea sta sto true ie s = go sta sto (stored ea sta sto true ie s) := by
  simp only [writeCr, writeFields_of_not_stopPending hstop]
  exact congrArg (go sta sto) (enable_of_phase_ne_off hoff)

/-- A go write in `Idle`. -/
theorem writeCr_go_idle (hp : s.phase = .idle) :
    writeCr true ea sta sto true ie s = goIdle sta sto (stored ea sta sto true ie s) := by
  rw [writeCr_go (by simp [hp]) (by simp [hp, stopPending])]
  simp [go, hp]

/-- A go write in `Wait`. -/
theorem writeCr_go_wait (hp : s.phase = .wait) :
    writeCr true ea sta sto true ie s = goWait sta sto (stored ea sta sto true ie s) := by
  rw [writeCr_go (by simp [hp]) (by simp [hp, stopPending])]
  simp [go, hp]

/-- A go write while a STOP is pending (R145). -/
theorem writeCr_go_stopping {x : Bool} (hp : s.phase = .stopping x) :
    writeCr true ea sta sto true ie s = goWhileStopping x sta (stored ea sta true true ie s) := by
  have hstop : stopPending s.phase = true := by rw [hp]; rfl
  have henable : enable (stored ea sta true true ie s) = stored ea sta true true ie s :=
    enable_of_phase_ne_off (by simp [hp])
  simp only [writeCr, writeFields_of_stopPending hstop, henable]
  simp [go, hp]

/-- A go write during a START wait or a byte transfer (R146). -/
theorem writeCr_go_transfer
    (hp : (∃ r, s.phase = .starting r) ∨ (∃ b, s.phase = .sendAddr b ∨ s.phase = .sendData b) ∨
      ∃ a, s.phase = .recvData a) :
    writeCr true ea sta sto true ie s = goDuringTransfer (stored ea sta sto true ie s) := by
  rcases hp with ⟨r, hp⟩ | ⟨b, hp | hp⟩ | ⟨a, hp⟩
  all_goals
    rw [writeCr_go (by simp [hp]) (by simp [hp, stopPending])]
    simp [go, hp]

/-! ## The go writes in `Wait`, by the rows of the dispatch table (R132) -/

/-- The rows are told apart by STATUS: no code is in two of them. -/
theorem codeRows_disjoint (c : Code5) :
    (c ∈ transmitCodes → c ∉ startCodes) ∧
    (c ∈ receiveCodes → c ∉ startCodes ∧ c ∉ transmitCodes) ∧
    (c ∈ receiveDoneCodes → c ∉ startCodes ∧ c ∉ transmitCodes ∧ c ∉ receiveCodes) := by
  revert c
  decide

/-- Rows 0x01 and 0x02. -/
theorem writeCr_go_startCodes (hp : s.phase = .wait) (h : s.status ∈ startCodes) :
    writeCr true ea sta sto true ie s = goAfterStart sta sto (stored ea sta sto true ie s) := by
  rw [writeCr_go_wait hp]
  exact if_pos h

/-- Rows 0x03 to 0x06. -/
theorem writeCr_go_transmitCodes (hp : s.phase = .wait) (h : s.status ∈ transmitCodes) :
    writeCr true ea sta sto true ie s = goAsTransmitter sta sto (stored ea sta sto true ie s) := by
  have hstart := (codeRows_disjoint s.status).1 h
  rw [writeCr_go_wait hp]
  simp [goWait, h, hstart]

/-- Rows 0x08 and 0x0A. -/
theorem writeCr_go_receiveCodes (hp : s.phase = .wait) (h : s.status ∈ receiveCodes) :
    writeCr true ea sta sto true ie s = goAsReceiver sta sto (stored ea sta sto true ie s) := by
  obtain ⟨-, hrow, -⟩ := codeRows_disjoint s.status
  rw [writeCr_go_wait hp]
  simp [goWait, h, hrow h]

/-- Rows 0x09 and 0x0B. -/
theorem writeCr_go_receiveDoneCodes (hp : s.phase = .wait) (h : s.status ∈ receiveDoneCodes) :
    writeCr true ea sta sto true ie s = goAfterReceive sta sto (stored ea sta sto true ie s) := by
  obtain ⟨-, -, hrow⟩ := codeRows_disjoint s.status
  rw [writeCr_go_wait hp]
  simp [goWait, h, hrow h]

/-- Rows 0x07. -/
theorem writeCr_go_arbLost (hp : s.phase = .wait) (h : s.status = stArbLost) :
    writeCr true ea sta sto true ie s = goAfterArbLost sta sto (stored ea sta sto true ie s) := by
  rw [writeCr_go_wait hp]
  simp only [goWait, stored_status, h]
  rfl

/-- Rows 0x00. -/
theorem writeCr_go_busError (hp : s.phase = .wait) (h : s.status = stBusError) :
    writeCr true ea sta sto true ie s = goAfterBusError sta sto (stored ea sta sto true ie s) := by
  rw [writeCr_go_wait hp]
  simp only [goWait, stored_status, h]
  rfl

/-- Rows 0x03 to 0x06, 0x09 and 0x0B with STA or STO: the transfer ends (R139 to R141). -/
theorem writeCr_go_endTransfer (hp : s.phase = .wait) (h : s.status ∈ transmitCodes ++ receiveDoneCodes)
    (hgo : (sta || sto) = true) :
    writeCr true ea sta sto true ie s = goEndTransfer sta sto (stored ea sta sto true ie s) := by
  rcases List.mem_append.1 h with h | h
  · rw [writeCr_go_transmitCodes hp h]
    exact if_pos hgo
  · rw [writeCr_go_receiveDoneCodes hp h]
    exact if_pos hgo

/-! ## The rows marked `UndefinedCommand` (R147) -/

/-- The marked rows, by the classes of STATUS. -/
theorem undefinedRow_iff (p : Phase) (st : Code5) (sta sto : Bool) :
    undefinedRow p st sta sto = true ↔
      p = .idle ∧ st = stNoInfo ∧ sta = false ∧ sto = false ∨
      p = .wait ∧
        (st ∈ startCodes ∧ (sta || sto) = true ∨ st ∈ receiveCodes ∧ (sta || sto) = true ∨
          st ∈ receiveDoneCodes ∧ (sta || sto) = false ∨ st = stArbLost ∧ sto = true ∨
          st = stBusError ∧ (sto && !sta) = false) := by
  cases p
  case idle => simp [undefinedRow, stNoInfo, and_assoc]
  case wait => revert st sta sto; decide
  all_goals simp [undefinedRow]

/-- A go write in a marked row does what the table says: its fields are stored, then the fault is recorded. -/
theorem writeCr_go_undefinedRow (h : undefinedRow s.phase s.status sta sto = true) :
    writeCr true ea sta sto true ie s = undefinedGo sta sto (stored ea sta sto true ie s) := by
  rcases (undefinedRow_iff _ _ _ _).1 h with ⟨hp, _, rfl, rfl⟩ | ⟨hp, hrow⟩
  · exact writeCr_go_idle hp
  rcases hrow with ⟨hs, hgo⟩ | ⟨hs, hgo⟩ | ⟨hs, hgo⟩ | ⟨hs, hgo⟩ | ⟨hs, hgo⟩
  · rw [writeCr_go_startCodes hp hs]
    exact if_pos hgo
  · rw [writeCr_go_receiveCodes hp hs]
    exact if_pos hgo
  · rw [writeCr_go_receiveDoneCodes hp hs]
    simp [goAfterReceive, hgo]
  · rw [writeCr_go_arbLost hp hs]
    exact if_pos hgo
  · rw [writeCr_go_busError hp hs]
    simp [goAfterBusError, hgo]

/-! ## What every CR write stores and keeps -/

/-- A CR write stores EA, STA and IE. -/
theorem writeCr_fields (int ea sta sto en ie : Bool) (s : State) :
    (writeCr int ea sta sto en ie s).crEa = ea ∧ (writeCr int ea sta sto en ie s).crSta = sta ∧
    (writeCr int ea sta sto en ie s).crIe = ie := by
  rcases writeCr_cases int ea sta sto en ie s with ⟨_, _, e⟩ | ⟨_, _, e⟩ | ⟨_, _, e⟩ | ⟨_, _, e⟩ <;> rw [e]
  · simp
  · simp
  · simp
  · obtain ⟨hea, hsta, hie, -⟩ := go_frame sta sto (enable (writeFields ea sta sto en ie s))
    simp [hea, hsta, hie]

/-- What no CR write touches: WC, DR, the clock configuration, and what is outside the block. -/
theorem writeCr_frame (int ea sta sto en ie : Bool) (s : State) :
    (writeCr int ea sta sto en ie s).crWc = s.crWc ∧ (writeCr int ea sta sto en ie s).dr = s.dr ∧
    (writeCr int ea sta sto en ie s).brr = s.brr ∧ (writeCr int ea sta sto en ie s).ps = s.ps ∧
    (writeCr int ea sta sto en ie s).rdata = s.rdata ∧ (writeCr int ea sta sto en ie s).draws = s.draws ∧
    (writeCr int ea sta sto en ie s).host = s.host ∧ (writeCr int ea sta sto en ie s).turns = s.turns ∧
    (writeCr int ea sta sto en ie s).result = s.result := by
  rcases writeCr_cases int ea sta sto en ie s with ⟨_, _, e⟩ | ⟨_, _, e⟩ | ⟨_, _, e⟩ | ⟨_, _, e⟩ <;> rw [e]
  · simp
  · simp
  · simp
  · obtain ⟨-, -, -, -, hrest⟩ := go_frame sta sto (enable (writeFields ea sta sto en ie s))
    simpa using hrest

/-- A CR write that leaves a pending STOP pending leaves STO at 1: no write clears it but a disable, which ends in
`Off` (R130). -/
theorem writeCr_crSto_of_stopping {x y : Bool} (hs : s.phase = .stopping x)
    (ht : (writeCr int ea sta sto en ie s).phase = .stopping y) : (writeCr int ea sta sto en ie s).crSto = true := by
  cases en with
  | false =>
    rw [writeCr_disable (by simp [hs])] at ht
    cases ht
  | true =>
    cases int with
    | false => simp [writeCr_latch, hs, stopPending]
    | true =>
      rw [writeCr_go_stopping hs]
      rfl

end

/-! ## The statements about every CR write -/

/-- Settles O31: a command is a CR write, by `exec_command`, and the fields and the frame are those of `writeCr`. -/
theorem commandsStoreFieldsAndKeepTheRest : Obligations.CommandsStoreFieldsAndKeepTheRest := by
  intro i s t hi h
  refine ⟨fun int ea sta sto ie hdis => ?_, fun ea sta sto ie hen => ?_, ?_⟩
  · subst hdis
    obtain rfl := Host.Outcome.next.inj h
    obtain ⟨hea, hsta, hie⟩ := writeCr_fields int ea sta sto false ie s
    exact ⟨hea, hsta, hie, writeCr_crEn ..⟩
  · obtain ⟨int, hexec⟩ := exec_enabling hen
    obtain rfl := Host.Outcome.next.inj ((hexec s).symm.trans h)
    obtain ⟨hea, hsta, hie⟩ := writeCr_fields int ea sta sto true ie s
    exact ⟨hea, hsta, hie, writeCr_crEn ..⟩
  · obtain ⟨int, ea, sta, sto, en, ie, hexec⟩ := exec_command hi
    obtain rfl := Host.Outcome.next.inj ((hexec s).symm.trans h)
    exact ⟨fun ⟨_, ht⟩ ⟨_, hs⟩ => writeCr_crSto_of_stopping hs ht, writeCr_frame int ea sta sto en ie s⟩

/-- Settles O21: the write is `disable`, and ownership does not depend on the fields it stores. -/
theorem disableSwitchesOff : Obligations.DisableSwitchesOff := fun _ _ _ _ _ _ hp =>
  congrArg Host.Outcome.next ((writeCr_disable hp).trans (disable_eq _))

/-- Settles O29: the write is `enable` after its fields, by whether a STOP is pending and whether the block is off. -/
theorem latchOnlyStoresFields : Obligations.LatchOnlyStoresFields := by
  refine fun s ea sta sto ie => ⟨fun x hp => congrArg Host.Outcome.next ?_, fun hp => congrArg Host.Outcome.next ?_,
    fun hoff hstop => congrArg Host.Outcome.next ?_⟩
  · have hpend : stopPending s.phase = true := (stopPending_eq_true_iff _).2 ⟨x, hp⟩
    rw [writeCr_latch, writeFields_of_stopPending hpend]
    exact enable_of_phase_ne_off (by simp [hp])
  · rw [writeCr_latch, writeFields_of_not_stopPending (by simp [hp, stopPending])]
    exact enable_of_phase_off hp
  · have hpend : stopPending s.phase = false := by
      rw [Bool.eq_false_iff, Ne, stopPending_eq_true_iff]
      exact fun ⟨x, hp⟩ => hstop x hp
    rw [writeCr_latch, writeFields_of_not_stopPending hpend]
    exact enable_of_phase_ne_off hoff

/-- Settles O30: a write with EN = 1 first enables the block, and one with EN = 0 finds nothing to disable. -/
theorem writeWhileOffEnablesOrStores : Obligations.WriteWhileOffEnablesOrStores := by
  refine fun s hp => ⟨fun i ea ie sta sto hi => ?_, fun int ea sta sto ie => ?_⟩
  · obtain ⟨int, hexec⟩ := exec_enabling hi
    rw [hexec, hexec, writeCr_enabling_of_off hp]
  · exact congrArg Host.Outcome.next (writeCr_disable_of_off hp)

/-! ## The statements about the go writes, by the phase and the row of the dispatch table -/

/-- Settles O17: the rows of `Idle` with STA = 1 do not look at STO. -/
theorem startFromIdleRequestsStart : Obligations.StartFromIdleRequestsStart := by
  intro s ea ie hp i hi
  simp only [List.mem_cons, List.not_mem_nil, or_false] at hi
  rcases hi with rfl | rfl
  · exact congrArg Host.Outcome.next (writeCr_go_idle hp)
  · exact congrArg Host.Outcome.next (writeCr_go_idle hp)

/-- Settles O18: the row of `Idle` with STO alone. -/
theorem stopInIdleOnlyClearsSto : Obligations.StopInIdleOnlyClearsSto := fun _ _ _ hp =>
  congrArg Host.Outcome.next (writeCr_go_idle hp)

/-- Settles O19: the rows 0x01 and 0x02 with neither STA nor STO. -/
theorem contAfterStartSendsAddress : Obligations.ContAfterStartSendsAddress := fun _ _ _ hp hs =>
  congrArg Host.Outcome.next (writeCr_go_startCodes hp hs)

/-- Settles O20: the row 0x00 with STO alone. -/
theorem stopAfterBusErrorRecovers : Obligations.StopAfterBusErrorRecovers := fun _ _ _ hp hs =>
  congrArg Host.Outcome.next (writeCr_go_busError hp hs)

/-- Settles O22: the rows 0x03 to 0x06 with neither STA nor STO. -/
theorem contAsTransmitterSendsData : Obligations.ContAsTransmitterSendsData := fun _ _ _ hp hs =>
  congrArg Host.Outcome.next (writeCr_go_transmitCodes hp hs)

/-- Settles O23: each of the three classes ends the transfer. -/
theorem startAndStopWhileOwning : Obligations.StartAndStopWhileOwning := fun _ _ _ hp hs =>
  ⟨congrArg Host.Outcome.next (writeCr_go_endTransfer hp hs rfl),
    congrArg Host.Outcome.next (writeCr_go_endTransfer hp hs rfl),
    congrArg Host.Outcome.next (writeCr_go_endTransfer hp hs rfl)⟩

/-- Settles O24: the rows 0x08 and 0x0A with neither STA nor STO; the acknowledge is the EA stored. -/
theorem contAsReceiverReceives : Obligations.ContAsReceiverReceives := fun _ _ _ hp hs =>
  congrArg Host.Outcome.next (writeCr_go_receiveCodes hp hs)

/-- Settles O25: the rows 0x07 without STO. -/
theorem arbitrationLossIsLeftByContOrStart : Obligations.ArbitrationLossIsLeftByContOrStart := fun _ _ _ hp hs =>
  ⟨congrArg Host.Outcome.next (writeCr_go_arbLost hp hs), congrArg Host.Outcome.next (writeCr_go_arbLost hp hs)⟩

/-- Settles O26: the row of `Stopping`, for both values of STA. -/
theorem goWhileStoppingQueuesStart : Obligations.GoWhileStoppingQueuesStart := by
  intro s x ea ie i sta sto hp hi
  rw [exec_goClass hi, writeCr_go_stopping hp]
  cases sta <;> rfl

/-- Settles O27: the rows of a transfer record the fault, where none is recorded yet. -/
theorem goDuringTransferIsFault : Obligations.GoDuringTransferIsFault := by
  intro s ea ie i sta sto hp hi hsafe
  have hsafe' : Safe (stored ea sta sto true ie s) := hsafe
  rw [exec_goClass hi, writeCr_go_transfer hp, goDuringTransfer, raise_of_safe hsafe']
  rfl

/-- Settles O28: the marked rows record the fault, where none is recorded yet. -/
theorem undefinedGoIsFault : Obligations.UndefinedGoIsFault := by
  intro s ea ie i sta sto hrow hi hsafe
  have hsafe' : Safe (stored ea sta sto true ie s) := hsafe
  rw [exec_goClass hi, writeCr_go_undefinedRow hrow, undefinedGo, raise_of_safe hsafe']
  rfl

end Sys2Proof.Machine
end

section
/-! PROOF. The sequencer (spec 42), answer by answer: where a phase admits the answer that is the next turn, the step of
the machine is the completion, and its fields are read off; at any other answer only the turn is used up. -/

namespace Sys2Proof.Machine

section
variable {s : State} {a : Answer} {ts : List Turn}

/-! ## A turn of the sequencer -/

/-- The phase admits an answer exactly where a sequencer step exists (R184). -/
theorem isSome_seqStep (a : Answer) (s : State) : (seqStep a s).isSome = answerAdmitted s.phase a := by
  unfold seqStep
  cases s.phase with
  | recvData ack => cases ack <;> cases a <;> rfl
  | off | idle | wait => rfl
  | starting | stopping | sendAddr | sendData => cases a <;> rfl

/-- At an answer the step of the machine is the sequencer's. -/
theorem step_of_bus {t : State} (hts : s.turns = .bus a :: ts) (h : seqStep a { s with turns := ts } = some t) :
    step s = .next t := by
  simp [step, hts, busTurn, h]

/-- At an answer that is not admitted only the turn is used up (assumption 3). -/
theorem step_of_bus_not_admitted (hts : s.turns = .bus a :: ts) (h : answerAdmitted s.phase a = false) :
    step s = .next { s with turns := ts } := by
  have hnone : seqStep a { s with turns := ts } = none := by
    rw [← Option.not_isSome_iff_eq_none, isSome_seqStep]
    simp [h]
  simp [step, hts, busTurn, hnone]

/-! ## The completion each phase makes of its answers (R171 to R179) -/

theorem seqStep_granted {rep : Bool} (hp : s.phase = .starting rep) : seqStep .granted s = some (startDone rep s) := by
  simp [seqStep, hp]

theorem seqStep_done {x : Bool} (hp : s.phase = .stopping x) : seqStep .done s = some (stopDone x s) := by
  simp [seqStep, hp]

/-- The answer that gives the acknowledge bit of a transmitted byte (R184). -/
def ackAnswer : AckBit → Answer
  | .ack => .ack
  | .nack => .nack

theorem seqStep_sendAddr {b : Byte} (r : AckBit) (hp : s.phase = .sendAddr b) :
    seqStep (ackAnswer r) s = some (addrDone b r s) := by
  cases r <;> simp [seqStep, ackAnswer, hp]

theorem seqStep_sendData {b : Byte} (r : AckBit) (hp : s.phase = .sendData b) :
    seqStep (ackAnswer r) s = some (txDone b r s) := by
  cases r <;> simp [seqStep, ackAnswer, hp]

theorem seqStep_byte {ack : Bool} (v : Byte) (hp : s.phase = .recvData ack) :
    seqStep (.byte v) s = some (rxDone ack v s) := by
  simp [seqStep, hp]

theorem seqStep_arbLost (hp : (∃ b, s.phase = .sendAddr b ∨ s.phase = .sendData b) ∨ s.phase = .recvData false) :
    seqStep .arbLost s = some (arbLostDone s) := by
  rcases hp with ⟨b, hp | hp⟩ | hp <;> simp [seqStep, hp]

theorem seqStep_busError
    (hp : (∃ b, s.phase = .sendAddr b ∨ s.phase = .sendData b) ∨ ∃ ack, s.phase = .recvData ack) :
    seqStep .busError s = some (busErrorDone s) := by
  rcases hp with ⟨b, hp | hp⟩ | ⟨ack, hp⟩ <;> simp [seqStep, hp]

/-- The code of an acknowledged address byte (R172). -/
theorem addrStatus_ack (b : Byte) : addrStatus b .ack = if b.getLsbD 0 then stMrSlaAck else stMtSlaAck := by
  unfold addrStatus
  cases b.getLsbD 0 <;> rfl

/-- The code of an address byte that no slave acknowledges (R172). -/
theorem addrStatus_nack (b : Byte) : addrStatus b .nack = if b.getLsbD 0 then stMrSlaNack else stMtSlaNack := by
  unfold addrStatus
  cases b.getLsbD 0 <;> rfl

end

/-! ## The obligations on the completions -/

/-- Settles O33: the completion of a START. -/
theorem grantedStartCompletes : Obligations.GrantedStartCompletes := fun _ _ _ hts hp =>
  step_of_bus hts (seqStep_granted hp)

/-- Settles O34: the completion of an address byte, with `addrStatus` by the acknowledge. -/
theorem addressByteCompletes : Obligations.AddressByteCompletes := by
  refine fun s ts b hp => ⟨fun hts => ?_, fun hts => ?_⟩
  · rw [step_of_bus hts (seqStep_sendAddr .ack hp), addrDone, addrStatus_ack]
    rfl
  · rw [step_of_bus hts (seqStep_sendAddr .nack hp), addrDone, addrStatus_nack]
    rfl

/-- Settles O36: the completion of a data byte. -/
theorem dataByteCompletes : Obligations.DataByteCompletes := fun _ _ _ hp =>
  ⟨fun hts => step_of_bus hts (seqStep_sendData .ack hp), fun hts => step_of_bus hts (seqStep_sendData .nack hp)⟩

/-- Settles O37: the completion of a received byte. -/
theorem receivedByteCompletes : Obligations.ReceivedByteCompletes := fun _ _ _ v hts hp =>
  step_of_bus hts (seqStep_byte v hp)

/-- Settles O39: the completion of a STOP. -/
theorem stopCompletesWithoutFlag : Obligations.StopCompletesWithoutFlag := fun _ _ _ hts hp =>
  step_of_bus hts (seqStep_done hp)

/-- Settles O35: the completion of a lost byte ends in `Wait` with a code that is no master code; in `RecvData(true)` the
answer is not admitted. -/
theorem arbitrationLossCompletes : Obligations.ArbitrationLossCompletes := by
  refine fun s ts hts => ⟨fun hp => ?_, fun hp => step_of_bus_not_admitted hts (by rw [hp]; rfl)⟩
  exact ⟨_, step_of_bus hts (seqStep_arbLost hp), rfl, rfl⟩

/-- At a bus error R132 defines STO alone (R136) and marks the other commands. -/
theorem undefinedRow_busError (sta sto : Bool) :
    undefinedRow .wait stBusError sta sto = false ↔ sta = false ∧ sto = true := by
  revert sta sto
  decide

/-- There the recovery alone leaves `Wait` and clears CR.INT; the other go writes record the fault and do neither. -/
theorem goAfterBusError_leaves_iff {s : State} (hp : s.phase = .wait) (hint : s.crInt = true) (sta sto : Bool) :
    ((goAfterBusError sta sto s).phase ≠ .wait ↔ sta = false ∧ sto = true) ∧
    ((goAfterBusError sta sto s).crInt = false ↔ sta = false ∧ sto = true) := by
  by_cases h : sta = false ∧ sto = true
  · obtain ⟨rfl, rfl⟩ := h
    simp [goAfterBusError, recoverBusError]
  · have hundef : goAfterBusError sta sto s = undefinedGo sta sto s := if_neg (by simpa [and_comm] using h)
    simp [hundef, undefinedGo, hp, hint, h]

/-- Settles O38: the completion ends in the row 0x00 of `Wait`, whose go writes are `goAfterBusError`. -/
theorem busErrorCompletes : Obligations.BusErrorCompletes := by
  intro s ts hts hp
  refine ⟨_, step_of_bus hts (seqStep_busError hp), undefinedRow_busError, fun ea ie i sta sto u hi hu => ?_, rfl⟩
  rw [exec_goClass hi, writeCr_go_busError rfl rfl] at hu
  obtain rfl := Host.Outcome.next.inj hu
  exact goAfterBusError_leaves_iff rfl rfl sta sto

/-- Settles O40: the sequencer steps on the admitted answers; another answer only uses its turn up; and a host with no
operation left does nothing. -/
theorem onlyAdmittedAnswersStep : Obligations.OnlyAdmittedAnswersStep :=
  ⟨fun s a => isSome_seqStep a s, fun _ _ _ => step_of_bus_not_admitted, fun s hts hh => by simp [step, hostTurn, hts, hh]⟩

end Sys2Proof.Machine
end

section
/-! PROOF. STATUS and the bus trace (41 R132; 42 R181 to R183; 43 R213). Both invariants speak of the phase, STATUS and
the trace alone. `Move` says once what an operation of the machine can do to these three; every step is made of moves, and
each invariant then goes through the moves. -/

namespace Sys2Proof.Machine

/-! ## The moves -/

/-- `Move s p st es`: an operation may take `s` to the phase `p` and the STATUS `st` and emit the events `es`. -/
inductive Move (s : State) : Phase → Code5 → List BusEvent → Prop where
  /-- Nothing of the three changes. -/
  | stay : Move s s.phase s.status []
  /-- R149. -/
  | enable (hp : s.phase = .off) : Move s .idle s.status []
  /-- R137, R290. -/
  | switchOff : Move s .off stNoInfo (if owns s then [.release] else [])
  /-- R133. -/
  | startFromIdle (hp : s.phase = .idle) : Move s (.starting false) s.status []
  /-- R145. -/
  | goWhileStopping {x : Bool} (y : Bool) (hp : s.phase = .stopping x) : Move s (.stopping y) s.status []
  /-- R135. -/
  | sendAddress (b : Byte) (hp : s.phase = .wait) (hst : s.status ∈ startCodes) : Move s (.sendAddr b) s.status []
  /-- R138. -/
  | sendDataByte (b : Byte) (hp : s.phase = .wait) (hst : s.status ∈ transmitCodes) : Move s (.sendData b) s.status []
  /-- R142. -/
  | receiveByte (ack : Bool) (hp : s.phase = .wait) (hst : s.status ∈ receiveCodes) : Move s (.recvData ack) s.status []
  /-- R139. -/
  | repeatStart (hp : s.phase = .wait) (hst : s.status ∈ transmitCodes ++ receiveDoneCodes) :
    Move s (.starting true) s.status []
  /-- R140, R141. -/
  | requestStop (x : Bool) (hp : s.phase = .wait) (hst : s.status ∈ transmitCodes ++ receiveDoneCodes) :
    Move s (.stopping x) s.status []
  /-- R143. -/
  | giveUp (hp : s.phase = .wait) (hst : s.status = stArbLost) : Move s .idle stNoInfo []
  /-- R144. -/
  | retryStart (hp : s.phase = .wait) (hst : s.status = stArbLost) : Move s (.starting false) s.status []
  /-- R136. -/
  | recoverBusError (hp : s.phase = .wait) (hst : s.status = stBusError) : Move s .idle stNoInfo [.release]
  /-- R171. -/
  | startDone {rep : Bool} (hp : s.phase = .starting rep) :
    Move s .wait (startStatus rep) [if rep then .repStart else .start]
  /-- R172. -/
  | addrDone {b : Byte} (r : AckBit) (hp : s.phase = .sendAddr b) : Move s .wait (addrStatus b r) [.addr b r]
  /-- R174. -/
  | txDone {b : Byte} (r : AckBit) (hp : s.phase = .sendData b) : Move s .wait (txStatus r) [.txData b r]
  /-- R176. -/
  | rxDone {ack : Bool} (v : Byte) (hp : s.phase = .recvData ack) : Move s .wait (rxStatus ack) [.rxData v ack]
  /-- R173, R175, R177. -/
  | arbLostDone (hp : shifting s.phase = true) : Move s .wait stArbLost [.arbLost]
  /-- R178. -/
  | busErrorDone (hp : shifting s.phase = true) : Move s .wait stBusError [.busError]
  /-- R179. -/
  | stopDone {x : Bool} (hp : s.phase = .stopping x) :
    Move s (if x then .starting false else .idle) stNoInfo [.stop]

/-- `t` is `s` after a move, whatever else changes. -/
abbrev Moved (s t : State) : Prop := ∃ es, Move s t.phase t.status es ∧ t.trace = s.trace ++ es

/-- A change of other fields is no move. -/
theorem moved_of_eq {s t : State} (hp : t.phase = s.phase) (hst : t.status = s.status) (htr : t.trace = s.trace) :
    Moved s t :=
  ⟨[], hp ▸ hst ▸ .stay, by simp [htr]⟩

/-- A move that emits nothing. -/
theorem moved_of_silent {s t : State} (hm : Move s t.phase t.status []) (htr : t.trace = s.trace) : Moved s t :=
  ⟨[], hm, by simp [htr]⟩

/-! ## What each operation does, as moves -/

theorem disable_moved (s : State) : Moved s (disable s) :=
  ⟨_, .switchOff, by cases ho : owns s <;> simp [ho]⟩

theorem resetBlock_moved (s : State) : Moved s (resetBlock s) :=
  ⟨_, .switchOff, by cases ho : owns s <;> simp [ho]⟩

theorem enable_moved (s : State) : Moved s (enable s) := by
  by_cases hp : s.phase = .off
  · rw [enable_of_phase_off hp]
    exact moved_of_silent (.enable hp) rfl
  · rw [enable_of_phase_ne_off hp]
    exact moved_of_eq rfl rfl rfl

theorem goWait_moved {sta sto : Bool} {s : State} (hp : s.phase = .wait) : Moved s (goWait sta sto s) := by
  rcases goWait_cases sta sto s with ⟨hst, _, _, h⟩ | ⟨hst, _, _, h⟩ | ⟨hst, _, _, h⟩ | ⟨hst, _, _, h⟩ | ⟨hst, _, _, h⟩ |
    ⟨hst, _, _, h⟩ | ⟨hst, _, _, h⟩ | ⟨hst, _, _, h⟩ | ⟨hst, _, _, h⟩ | h <;> rw [h]
  · exact moved_of_silent (.sendAddress s.dr hp hst) rfl
  · exact moved_of_silent (.sendDataByte s.dr hp hst) rfl
  · exact moved_of_silent (.repeatStart hp hst) rfl
  · exact moved_of_silent (.requestStop false hp hst) rfl
  · exact moved_of_silent (.requestStop true hp hst) rfl
  · exact moved_of_silent (.receiveByte s.crEa hp hst) rfl
  · exact moved_of_silent (.giveUp hp hst) rfl
  · exact moved_of_silent (.retryStart hp hst) rfl
  · exact ⟨_, .recoverBusError hp hst, rfl⟩
  · exact moved_of_eq rfl rfl rfl

theorem go_moved (sta sto : Bool) (s : State) : Moved s (go sta sto s) := by
  rcases go_cases sta sto s with ⟨hp, _, h⟩ | ⟨_, _, _, h⟩ | ⟨hp, h⟩ | ⟨x, hp, h⟩ | h | h <;> rw [h]
  case inl => exact moved_of_silent (.startFromIdle hp) rfl
  case inr.inr.inl => exact goWait_moved hp
  case inr.inr.inr.inl => cases sta <;> exact moved_of_silent (.goWhileStopping _ hp) rfl
  all_goals exact moved_of_eq rfl rfl rfl

theorem seqStep_moved {a : Answer} {s t : State} (h : seqStep a s = some t) : Moved s t := by
  rcases seqStep_cases h with ⟨_, hp, _, rfl⟩ | ⟨x, hp, _, rfl⟩ | ⟨_, r, hp, _, rfl⟩ | ⟨_, r, hp, _, rfl⟩ |
    ⟨_, v, hp, _, rfl⟩ | ⟨hp, _, rfl⟩ | ⟨hp, _, rfl⟩
  · exact ⟨_, .startDone hp, rfl⟩
  · exact ⟨_, .stopDone hp, rfl⟩
  · exact ⟨_, .addrDone r hp, rfl⟩
  · exact ⟨_, .txDone r hp, rfl⟩
  · exact ⟨_, .rxDone v hp, rfl⟩
  · have hshift : shifting s.phase = true := by
      rcases hp with ⟨_, hp⟩ | ⟨_, hp⟩ | hp <;> rw [hp] <;> rfl
    exact ⟨_, .arbLostDone hshift, rfl⟩
  · exact ⟨_, .busErrorDone hp, rfl⟩

/-! ## What every move keeps, every step keeps -/

section
variable {P : State → Prop} (hmove : ∀ s t, Moved s t → P s → P t)
include hmove

/-- A CR write is a disable, or an enable and then perhaps a go, after its fields are stored. -/
theorem writeCr_keeps_of_moved {int ea sta sto en ie : Bool} {s : State} (hs : P s) :
    P (writeCr int ea sta sto en ie s) := by
  have hf : P (writeFields ea sta sto en ie s) := hmove s _ (moved_of_eq rfl rfl rfl) hs
  have he := hmove _ _ (enable_moved _) hf
  rcases writeCr_cases int ea sta sto en ie s with ⟨_, _, e⟩ | ⟨_, _, e⟩ | ⟨_, _, e⟩ | ⟨_, _, e⟩ <;> rw [e]
  · exact hf
  · exact hmove _ _ (disable_moved _) hf
  · exact he
  · exact hmove _ _ (go_moved _ _ _) he

theorem exec_keeps_of_moved {i : Instr} {s t : State} (hs : P s) (h : exec i s = .next t) : P t := by
  cases hi : isCommand i with
  | false =>
    obtain ⟨_, _, _, _, _, _, rfl⟩ := exec_plain_form hi h
    exact hmove s _ (moved_of_eq rfl rfl rfl) hs
  | true =>
    obtain ⟨_, _, _, _, _, _, hexec⟩ := exec_command hi
    obtain rfl := Host.Outcome.next.inj ((hexec s).symm.trans h)
    exact writeCr_keeps_of_moved hmove hs

theorem step_keeps_of_moved {s t : State} (hs : P s) (h : step s = .next t) : P t :=
  step_keeps (fun _ _ _ => exec_keeps_of_moved hmove) (fun _ _ _ hu hv => hmove _ _ (seqStep_moved hv) hu)
    (fun _ => hmove _ _ (resetBlock_moved _)) (fun _ _ => hmove _ _ (moved_of_eq rfl rfl rfl))
    (fun _ _ _ _ => hmove _ _ (moved_of_eq rfl rfl rfl)) hs h

end

/-! ## STATUS -/

/-- Every move ends with a STATUS of the phase it enters: a completion by the code it writes, a go by its row of R132. -/
theorem Move.statusFits {s : State} {p : Phase} {st : Code5} {es : List BusEvent} (hm : Move s p st es)
    (hs : StatusFits s) : statusFitsPhase p st = true := by
  unfold StatusFits at hs
  cases hm with
  | stay => exact hs
  | enable hp | goWhileStopping _ hp =>
    rw [hp] at hs
    exact hs
  | startFromIdle hp =>
    rw [hp] at hs
    exact Bool.or_inl hs
  | sendAddress _ _ hst | sendDataByte _ _ hst | receiveByte _ _ hst | repeatStart _ hst | requestStop _ _ hst =>
    exact decide_eq_true hst
  | retryStart _ hst =>
    rw [hst]
    rfl
  | @startDone rep => cases rep <;> rfl
  | @addrDone b r => cases hb : b.getLsbD 0 <;> cases r <;> simp only [addrStatus, hb] <;> rfl
  | txDone r => cases r <;> rfl
  | @rxDone ack => cases ack <;> rfl
  | @stopDone x => cases x <;> rfl
  | switchOff | giveUp | recoverBusError | arbLostDone | busErrorDone => rfl

/-- Settles O44: every move keeps STATUS in its table, and every step is made of moves. -/
theorem stepKeepsStatusInItsTable : Obligations.StepKeepsStatusInItsTable := fun _ _ =>
  step_keeps_of_moved fun _ _ ⟨_, hm, _⟩ hs => hm.statusFits hs

/-! ## The bus trace -/

/-- The mode after some more events. -/
def busModeFrom (m : BusMode) (es : List BusEvent) : Option BusMode :=
  es.foldl (fun m e => m.bind (busNext · e)) (some m)

theorem busModeAfter_append {tr : List BusEvent} {m : BusMode} (h : busModeAfter tr = some m) (es : List BusEvent) :
    busModeAfter (tr ++ es) = busModeFrom m es := by
  rw [busModeAfter, List.foldl_append]
  exact congrArg (es.foldl _) h

section
variable {s : State} {m : BusMode}

/-- In `Wait` the mode is told by the row of R132 that STATUS is in. -/
theorem mode_of_wait (hp : s.phase = .wait) (hs : modeFits s.phase s.status m = true) :
    (s.status ∈ startCodes → (m == .addressing) = true) ∧ (s.status ∈ transmitCodes → (m == .transmitting) = true) ∧
    (s.status ∈ receiveCodes → (m == .receiving) = true) ∧
    (s.status ∈ transmitCodes ++ receiveDoneCodes → (m == .transmitting || m == .received) = true) ∧
    (s.status = stArbLost → m = .free) ∧ (s.status = stBusError → m = .broken) := by
  rw [hp] at hs
  generalize s.status = c at hs ⊢
  revert c
  cases m <;> decide

/-- While a byte is shifted the mode is one of three, in each of which the bus may be lost (R173, R175, R177, R178). -/
theorem mode_of_shifting (hp : shifting s.phase = true) (hs : modeFits s.phase s.status m = true) :
    m = .addressing ∨ m = .transmitting ∨ m = .receiving := by
  cases h : s.phase <;> simp_all [shifting, modeFits]

/-- The block owns the bus exactly in the modes of a transaction. -/
theorem owns_of_mode (hs : modeFits s.phase s.status m = true) : owns s = !(m == .free || m == .broken) := by
  unfold owns
  cases hp : s.phase <;> simp only [hp] at hs ⊢
  case wait =>
    generalize s.status = c at hs ⊢
    revert c
    cases m <;> decide
  case starting rep => cases rep <;> cases m <;> simp_all [modeFits]
  all_goals cases m <;> simp_all [modeFits]

/-- A transaction is ended by a `Release`. -/
theorem busNext_release (h : (m == .free || m == .broken) = false) : busNext m .release = some .free := by
  cases m <;> simp_all [busNext]

/-- Every move's event is allowed in a mode that fits, and leads to one that fits where the move ends. -/
theorem Move.events_allowed {p : Phase} {st : Code5} {es : List BusEvent} (hm : Move s p st es)
    (hs : modeFits s.phase s.status m = true) : ∃ m', busModeFrom m es = some m' ∧ modeFits p st m' = true := by
  cases hm with
  | stay => exact ⟨m, rfl, hs⟩
  | enable hp | startFromIdle hp | goWhileStopping _ hp =>
    rw [hp] at hs
    exact ⟨m, rfl, hs⟩
  | switchOff =>
    rw [owns_of_mode hs]
    cases h : m == .free || m == .broken with
    | false => exact ⟨.free, busNext_release h, rfl⟩
    | true => exact ⟨m, rfl, h⟩
  | sendAddress _ hp hst =>
    obtain ⟨hmode, -⟩ := mode_of_wait hp hs
    exact ⟨m, rfl, hmode hst⟩
  | sendDataByte _ hp hst =>
    obtain ⟨-, hmode, -⟩ := mode_of_wait hp hs
    exact ⟨m, rfl, hmode hst⟩
  | receiveByte _ hp hst =>
    obtain ⟨-, -, hmode, -⟩ := mode_of_wait hp hs
    exact ⟨m, rfl, hmode hst⟩
  | repeatStart hp hst | requestStop _ hp hst =>
    obtain ⟨-, -, -, hmode, -⟩ := mode_of_wait hp hs
    exact ⟨m, rfl, hmode hst⟩
  | giveUp hp hst | retryStart hp hst =>
    obtain ⟨-, -, -, -, hmode, -⟩ := mode_of_wait hp hs
    obtain rfl := hmode hst
    exact ⟨_, rfl, rfl⟩
  | recoverBusError hp hst =>
    obtain ⟨-, -, -, -, -, hmode⟩ := mode_of_wait hp hs
    obtain rfl := hmode hst
    exact ⟨_, rfl, rfl⟩
  | @startDone rep hp =>
    rw [hp] at hs
    cases rep with
    | false =>
      have hmode : m = .free ∨ m = .broken := by simpa [modeFits] using hs
      rcases hmode with rfl | rfl <;> exact ⟨.addressing, rfl, rfl⟩
    | true =>
      have hmode : m = .transmitting ∨ m = .received := by simpa [modeFits] using hs
      rcases hmode with rfl | rfl <;> exact ⟨.addressing, rfl, rfl⟩
  | @addrDone b r hp =>
    rw [hp] at hs
    obtain rfl := eq_of_beq hs
    refine ⟨_, rfl, ?_⟩
    cases hb : b.getLsbD 0 <;> cases r <;> simp only [addrStatus, hb] <;> rfl
  | txDone r hp =>
    rw [hp] at hs
    obtain rfl := eq_of_beq hs
    cases r <;> exact ⟨_, rfl, rfl⟩
  | @rxDone ack _ hp =>
    rw [hp] at hs
    obtain rfl := eq_of_beq hs
    cases ack <;> exact ⟨_, rfl, rfl⟩
  | arbLostDone hp => rcases mode_of_shifting hp hs with rfl | rfl | rfl <;> exact ⟨.free, rfl, rfl⟩
  | busErrorDone hp => rcases mode_of_shifting hp hs with rfl | rfl | rfl <;> exact ⟨.broken, rfl, rfl⟩
  | @stopDone x hp =>
    rw [hp] at hs
    have hmode : m = .transmitting ∨ m = .received := by simpa [modeFits] using hs
    have hfits : modeFits (if x then .starting false else .idle) stNoInfo .free = true := by cases x <;> rfl
    rcases hmode with rfl | rfl <;> exact ⟨.free, rfl, hfits⟩

end

/-- Settles O46: every move extends a legal trace to a legal trace, and every step is made of moves. -/
theorem stepKeepsTheBusProtocol : Obligations.StepKeepsTheBusProtocol := by
  refine fun _ _ => step_keeps_of_moved fun s t ⟨es, hm, htr⟩ ⟨m, hafter, hfits⟩ => ?_
  obtain ⟨m', hfrom, hfits'⟩ := hm.events_allowed hfits
  exact ⟨m', by rw [htr, busModeAfter_append hafter, hfrom], hfits'⟩

end Sys2Proof.Machine
end

section
/-! PROOF. The outputs (spec 43): what the block does with the lines between symbols (R211), within a byte and while SCL is
high (R212, R213), and the default divider against the driver's divisor (R217, R218; 44 R232). -/

namespace Sys2Proof.Machine

/-! ## Between symbols (R211) -/

section
variable {s : State}

/-- Away from the bus both lines are released. -/
theorem drives_released (h : s.phase = .off ∨ s.phase = .idle ∨ s.phase = .starting false) :
    sdaDrive s = .released ∧ sclDrive s = .released := by
  rcases h with h | h | h <;> simp [sdaDrive, sclDrive, h]

/-- In `Wait` the lines depend on who holds the bus. -/
theorem drives_wait (h : s.phase = .wait) :
    sdaDrive s = (if owns s then .unspecified else .released) ∧
    sclDrive s = (if owns s then .pulledLow else .released) := by
  simp [sdaDrive, sclDrive, h]

/-- While a symbol is in progress on a bus the block holds, both lines follow it. -/
theorem drives_bySymbol (h : s.phase = .starting true ∨ (∃ x, s.phase = .stopping x) ∨
      (∃ b, s.phase = .sendAddr b ∨ s.phase = .sendData b) ∨ (∃ a, s.phase = .recvData a)) :
    sdaDrive s = .bySymbol ∧ sclDrive s = .bySymbol := by
  rcases h with h | ⟨_, h⟩ | ⟨_, h | h⟩ | ⟨_, h⟩ <;> simp [sdaDrive, sclDrive, h]

end

/-! ## Within a byte (R212, R213) -/

/-- A byte has eight bits, one for each of its clock periods. -/
@[simp] theorem length_bitsMsbFirst (b : Byte) : (bitsMsbFirst b).length = 8 := rfl

/-- The most significant bit comes first. -/
theorem getElem?_bitsMsbFirst (b : Byte) {k : Nat} (hk : k < 8) : (bitsMsbFirst b)[k]? = some (b.getLsbD (7 - k)) := by
  interval_cases k <;> rfl

/-- Nine periods as eight and a ninth. -/
theorem eight_periods_and_ninth {xs : List Bool} (hxs : xs.length = 8) (ninth : Bool) :
    (xs ++ [ninth]).length = 9 ∧ (∀ k < 8, (xs ++ [ninth])[k]? = xs[k]?) ∧ (xs ++ [ninth])[8]? = some ninth :=
  ⟨by simp [hxs], fun _ hk => List.getElem?_append_left (by omega), hxs ▸ List.getElem?_concat_length⟩

/-- The ninth period is high exactly for NACK. -/
theorem ackLevel_eq (r : AckBit) : ackLevel r = (r == .nack) := by cases r <;> rfl

/-- A transmitted byte: its bits and the receiver's acknowledge, and the block pulls SDA low for the 0 bits alone. -/
theorem transmitted_levels_pulls (b : Byte) (r : AckBit) {e : BusEvent} (he : e ∈ [BusEvent.addr b r, .txData b r]) :
    sdaLevels e = bitsMsbFirst b ++ [r == .nack] ∧ sdaPulls e = (bitsMsbFirst b).map (! ·) ++ [false] := by
  rw [← ackLevel_eq]
  obtain rfl | rfl : e = .addr b r ∨ e = .txData b r := by simpa using he
  · exact ⟨rfl, rfl⟩
  · exact ⟨rfl, rfl⟩

/-- In each period of a byte event the level is SDA's while SCL is high: one level, which stays. -/
theorem sclHighPeriods_byte {e : BusEvent}
    (he : (∃ b r, e = .addr b r ∨ e = .txData b r) ∨ (∃ v ack, e = .rxData v ack)) :
    sclHighPeriods e = (sdaLevels e).map ([·]) := by
  rcases he with ⟨_, _, rfl | rfl⟩ | ⟨_, _, rfl⟩ <;> rfl

/-- Settles O54: between symbols by `drives_released`, `drives_wait` and `drives_bySymbol`; within a byte, period by
period, by `getElem?_bitsMsbFirst`; while SCL is high by `sclHighPeriods_byte`. -/
theorem linesFollowThePhase : Obligations.LinesFollowThePhase := by
  refine fun s => ⟨drives_released, fun hp ho => by simpa [ho] using drives_wait hp,
    fun hp ho => by simpa [ho] using drives_wait hp, drives_bySymbol, fun b r e he => ?transmitted,
    fun v ack => ?received, fun e => ⟨?start, ?stop, sclHighPeriods_byte⟩⟩
  case transmitted =>
    obtain ⟨hlevels, hpulls⟩ := transmitted_levels_pulls b r he
    rw [hlevels, hpulls]
    obtain ⟨hlen, hbits, hninth⟩ := eight_periods_and_ninth (length_bitsMsbFirst b) (r == .nack)
    obtain ⟨hlen', hbits', hninth'⟩ :=
      eight_periods_and_ninth (xs := (bitsMsbFirst b).map (! ·)) (by simp) false
    refine ⟨hlen, hlen', fun k hk => ⟨?_, ?_⟩, hninth, hninth'⟩
    · rw [hbits k hk, getElem?_bitsMsbFirst b hk]
    · rw [hbits' k hk, List.getElem?_map, getElem?_bitsMsbFirst b hk, Option.map_some]
  case received =>
    obtain ⟨hlen, hbits, hninth⟩ := eight_periods_and_ninth (length_bitsMsbFirst v) (!ack)
    obtain ⟨hlen', hbits', hninth'⟩ := eight_periods_and_ninth (xs := List.replicate 8 false) rfl ack
    refine ⟨hlen, hlen', fun k hk => ⟨?_, ?_⟩, hninth, hninth'⟩
    · exact (hbits k hk).trans (getElem?_bitsMsbFirst v hk)
    · exact (hbits' k hk).trans (List.getElem?_replicate_of_lt hk)
  case start => rintro (rfl | rfl) <;> rfl
  case stop => rintro rfl; rfl

/-! ## The bit rate (R217, R218) -/

/-- The domain of `initialize` (44 R232), whose bound on the clock is the one on the divisor. -/
theorem callWellFormed_initialise_iff (cpu bus : Nat) :
    callWellFormed (.initialise cpu bus) = true ↔ 1 ≤ bus ∧ 16 * bus ≤ cpu ∧ divisor cpu bus ≤ 255 := by
  have hbound (hbus : 1 ≤ bus) : cpu < 2064 * bus ↔ divisor cpu bus ≤ 255 := by
    have : cpu / (8 * bus) < 258 ↔ cpu < 258 * (8 * bus) := Nat.div_lt_iff_lt_mul (by omega)
    unfold divisor
    omega
  simp +contextual [callWellFormed, and_assoc, hbound]

/-- Inside that domain the driver's divisor fits BRR, and at PS = 0 the default divider adds back the 2 that the divisor
subtracts: the domain makes the quotient at least 2, so that the subtraction is exact. -/
theorem sclDivDefault_divisor {cpu bus : Nat} (h : callWellFormed (.initialise cpu bus) = true) :
    sclDivDefault (BitVec.ofNat 8 (divisor cpu bus)) 0#2 = 8 * (cpu / (8 * bus)) := by
  obtain ⟨hbus, hcpu, hfit⟩ := (callWellFormed_initialise_iff cpu bus).mp h
  have hquot : 2 ≤ cpu / (8 * bus) := (Nat.le_div_iff_mul_le (by omega)).mpr (by omega)
  have hbrr : (BitVec.ofNat 8 (divisor cpu bus)).toNat = divisor cpu bus := Nat.mod_eq_of_lt (by omega)
  have hback : divisor cpu bus + 2 = cpu / (8 * bus) := Nat.sub_add_cancel hquot
  simp [sclDivDefault, hbrr, hback, prescalerFactor]

/-- The bit rate of a clock that is a positive multiple of the divider. -/
theorem bitRateOf_mul (bus : Nat) {div : Nat} (h : 0 < div) : bitRateOf (div * bus) div = bus := by
  have : (div : Rat) ≠ 0 := by positivity
  simp [bitRateOf, this]

/-- Where 8 bus divides cpu, the default divider undoes the driver's divisor. -/
theorem bitRateOf_sclDivDefault_divisor {cpu bus : Nat} (h : callWellFormed (.initialise cpu bus) = true)
    (hdvd : 8 * bus ∣ cpu) :
    bitRateOf cpu (sclDivDefault (BitVec.ofNat 8 (divisor cpu bus)) 0#2) = (bus : Rat) := by
  rw [sclDivDefault_divisor h]
  obtain ⟨hbus, hcpu, -⟩ := (callWellFormed_initialise_iff cpu bus).mp h
  obtain ⟨q, rfl⟩ := hdvd
  have hq : 0 < q := Nat.pos_of_ne_zero (by rintro rfl; omega)
  rw [Nat.mul_div_cancel_left q (by omega), show 8 * bus * q = 8 * q * bus by ring]
  exact bitRateOf_mul bus (by omega)

/-- Settles O56: the clock pairs by `bitRateOf_sclDivDefault_divisor`, of which 16 MHz and F_BUS are one; the factors of
R218 are the powers of 4. -/
theorem defaultDividerInvertsTheDivisor : Obligations.DefaultDividerInvertsTheDivisor := by
  refine ⟨fun _ _ => bitRateOf_sclDivDefault_divisor, by decide,
    bitRateOf_sclDivDefault_divisor (cpu := 16000000) (bus := Config.fBus) (by decide) (by decide), fun brr p hp => ?_⟩
  have hfactor : prescalerFactor p.2 = p.1 := by
    revert p
    decide
  rw [sclDivDefault, hfactor]

end Sys2Proof.Machine
end

section
/-! PROOF. The reference driver (spec 44): a step of the host for a call, a register write, a poll and a check, each
said once (assumption 14); then the statements, read off these steps. -/

namespace Sys2Proof.Machine

/-! ## A step of the host, operation by operation -/

section
variable {s : State} {ts : List Turn} {rest : List HostOp}

/-- A call inside its domain puts its expansion in front of the host's program. -/
theorem step_call {c : DriverCall} (h : HostNext s ts) (ho : s.host = .call c :: rest) (hc : callWellFormed c = true) :
    step s = .next { s with host := expand c ++ rest, turns := ts, result := none } := by
  simp [step_of_hostNext_cons h ho, hostOp, callDriver, hc]

/-- A register write of the driver is the access it encodes. -/
theorem step_wrOp (off : Offset) (v : Byte) (h : HostNext s ts) (ho : s.host = wrOp off v :: rest) :
    step s = exec (decodeAccess true off v) { s with host := rest, turns := ts } := by
  rw [step_of_hostNext_cons h ho, wrOp, hostOp_access (decode_accessWord true off v)]

/-- Bit 7 of the byte CR reads as is CR.INT. -/
theorem getLsbD_readCr_seven (s : State) : (readCr s).getLsbD 7 = s.crInt := getLsbD_crByte _ _ _ _ _ _ _ 7

/-- The end of a poll that has read CR is decided by CR.INT. -/
theorem pollAgain_readCr (s : State) :
    pollAgain (returnByte (readCr s) s) =
      { s with host := if s.crInt then s.host else .poll :: s.host, rdata := readCr s } := by
  rw [pollAgain, returnByte_rdata, getLsbD_readCr_seven]
  by_cases hint : s.crInt = true
  · rw [if_pos hint, if_pos hint]
    rfl
  · rw [if_neg hint, if_neg hint]
    rfl

/-- A poll reads CR, and stays the next operation unless CR.INT is 1. -/
theorem step_poll (h : HostNext s ts) (ho : s.host = .poll :: rest) :
    step s = .next { s with host := if s.crInt then rest else .poll :: rest, turns := ts, rdata := readCr s } := by
  rw [step_of_hostNext_cons h ho]
  exact congrArg Host.Outcome.next (pollAgain_readCr _)

/-- A check reads SR and compares its status field, which is STATUS. -/
theorem step_check {e : Code5} {keep : Bool} (h : HostNext s ts) (ho : s.host = .check e keep :: rest) :
    step s = .next { s with
      host := rest, turns := ts, rdata := readSr s, result := if keep then some (s.status == e) else s.result } := by
  rw [step_of_hostNext_cons h ho]
  refine congrArg Host.Outcome.next ?_
  rw [checkRead, returnByte_rdata, statusField_readSr]
  cases keep <;> rfl

end

/-- Settles O60: `step_poll` at the two values of CR.INT, and `step_check`. -/
theorem pollRepeatsAndCheckCompares : Obligations.PollRepeatsAndCheckCompares := by
  refine fun s ts rest h => ⟨fun ho => ⟨fun hint => ?ended, fun hint => ?again⟩, fun e keep ho => step_check h ho⟩
  case ended => simp [step_poll h ho, hint]
  case again => simp [step_poll h ho, hint, ho]

/-! ## What a call expands to (R233 to R236, R238 to R240) -/

/-- The word of a write of DR is the byte below the head `0xB`. -/
theorem wrOp_dr (v : Byte) : wrOp .dr v = .access (0xB#8 ++ v) := rfl

/-- `sendByte`, its words written out. -/
theorem expandSendByte_eq (b : Byte) :
    expandSendByte b = [.access (0xB#8 ++ b), .access 0xC84#16, .poll, .check 0x05#5 false] := rfl

/-- The byte for a 7-bit address is the address and, below it, the direction bit. -/
theorem selectByte_toNat (a : BitVec 7) (d : Direction) : selectByte a.toNat d = a ++ BitVec.ofBool (dirBit d) := by
  simp [selectByte, addrByte]

/-- `selectAddress` at a 7-bit address, its words written out. -/
theorem expand_selectAddress (a : BitVec 7) (d : Direction) :
    expand (.selectAddress a.toNat d) =
      [.access (0xB#8 ++ (a ++ BitVec.ofBool (dirBit d))), .access 0xC84#16, .poll, .check 0x03#5 true] := by
  rw [expand, selectByte_toNat, wrOp_dr]
  rfl

/-- Every 7-bit address is in the domain of `selectAddress` (R236). -/
theorem callWellFormed_selectAddress (a : BitVec 7) (d : Direction) :
    callWellFormed (.selectAddress a.toNat d) = true := decide_eq_true a.isLt

/-- Settles O59: each call is in its domain and expands to the words listed, so that `step_call` gives the step. -/
theorem driverCallsExpand : Obligations.DriverCallsExpand := by
  intro s ts rest c ops h ho hc
  suffices hexp : callWellFormed c = true ∧ expand c = ops by
    obtain ⟨hwf, rfl⟩ := hexp
    exact step_call h ho hwf
  rcases hc with ⟨rfl, rfl⟩ | ⟨a, ⟨rfl, rfl⟩ | ⟨rfl, rfl⟩⟩ | ⟨b, rfl, rfl⟩ | ⟨bs, rfl, rfl⟩ | ⟨rfl, rfl⟩ | ⟨rfl, rfl⟩ |
    ⟨e, rfl, rfl⟩
  case inr.inl.inl => exact ⟨callWellFormed_selectAddress a .write, expand_selectAddress a .write⟩
  case inr.inl.inr => exact ⟨callWellFormed_selectAddress a .read, expand_selectAddress a .read⟩
  case inr.inr.inl => exact ⟨rfl, expandSendByte_eq b⟩
  case inr.inr.inr.inl => exact ⟨rfl, by rw [expand, List.flatMap_def, funext expandSendByte_eq]⟩
  all_goals exact ⟨rfl, rfl⟩

/-! ## The clock (R231, R232) -/

/-- A run goes on after a step that answers a next state. -/
theorem run_succ_of_step {s t : State} {k : Nat} (h : step s = .next t) :
    Host.Core.run Sys2Proof.core (k + 1) s = Host.Core.run Sys2Proof.core k t := by
  have hcore : Sys2Proof.core.step s = .next t := h
  simp only [Host.Core.run, hcore]

/-- Where the next `k` moves from `s` are the host's, it moves next in a state that `j < k` of them have led to. -/
theorem hostNext_of_drop {s u : State} {j k : Nat} (h : ∀ x ∈ s.turns.take k, x = .host) (hj : j < k)
    (hu : u.turns = s.turns.drop j) : HostNext u (s.turns.drop (j + 1)) := by
  rw [HostNext, hu]
  by_cases hlen : j < s.turns.length
  · have hturn : s.turns[j] = .host := h _ (List.mem_take_iff_getElem.2 ⟨j, by omega, rfl⟩)
    exact .inr (hturn ▸ List.drop_eq_getElem_cons hlen)
  · exact .inl ⟨List.drop_eq_nil_of_le (by omega), List.drop_eq_nil_of_le (by omega)⟩

/-- Settles O57: the call, the write of BRR and the write of SR, each a step of the host. -/
theorem initialiseSetsTheClock : Obligations.InitialiseSetsTheClock := by
  intro s rest cpu bus hturns ho hbus hcpu hfit
  have hwf : callWellFormed (.initialise cpu bus) = true := (callWellFormed_initialise_iff cpu bus).2 ⟨hbus, hcpu, hfit⟩
  have hrun := calc Host.Core.run Sys2Proof.core 3 s
    _ = Host.Core.run Sys2Proof.core 2 { s with
        host := expand (.initialise cpu bus) ++ rest, turns := s.turns.drop 1, result := none } :=
      run_succ_of_step (step_call (hostNext_of_drop hturns (by decide : 0 < 3) rfl) ho hwf)
    _ = Host.Core.run Sys2Proof.core 1 { s with
        host := wrOp .sr 0x00#8 :: rest, turns := s.turns.drop 2, result := none,
        brr := BitVec.ofNat 8 (divisor cpu bus) } :=
      run_succ_of_step (step_wrOp .brr _ (hostNext_of_drop hturns (by decide : 1 < 3) rfl) rfl)
    _ = .next { s with
        host := rest, turns := s.turns.drop 3, result := none, brr := BitVec.ofNat 8 (divisor cpu bus), ps := 0#2 } :=
      run_succ_of_step (step_wrOp .sr 0x00#8 (hostNext_of_drop hturns (by decide : 2 < 3) rfl) rfl)
  exact ⟨_, hrun, Nat.mod_eq_of_lt (Nat.lt_succ_of_le hfit), rfl⟩

end Sys2Proof.Machine
end

section
/-! PROOF. Exceptions (spec 60): no access stops (R260), a recorded fault stays through every step (R263), and a driver
call outside its domain is a fault (R262). -/

namespace Sys2Proof.Machine

/-! ## No access stops -/

/-- Settles O15: the meaning of every constructor is a next state. -/
theorem everyAccessIsPerformed : Obligations.EveryAccessIsPerformed := by
  intro i s
  cases i
  all_goals exact ⟨_, rfl⟩

/-! ## A recorded fault stays -/

section
variable {s t : State} {f : Fault}

/-- A fault recorded over another is not seen. -/
theorem raise_keeps_fault (g : Fault) (hs : s.fault = some f) : (raise g s).fault = some f := by
  simp [hs]

/-- A go write from `Wait` keeps a recorded fault: only its last row records one. -/
theorem goWait_keeps_fault (sta sto : Bool) (hs : s.fault = some f) : (goWait sta sto s).fault = some f := by
  rcases goWait_cases sta sto s with ⟨_, _, _, h⟩ | ⟨_, _, _, h⟩ | ⟨_, _, _, h⟩ | ⟨_, _, _, h⟩ | ⟨_, _, _, h⟩ |
    ⟨_, _, _, h⟩ | ⟨_, _, _, h⟩ | ⟨_, _, _, h⟩ | ⟨_, _, _, h⟩ | h <;> rw [h]
  case inr.inr.inr.inr.inr.inr.inr.inr.inr => exact raise_keeps_fault _ hs
  all_goals exact hs

theorem go_keeps_fault (sta sto : Bool) (hs : s.fault = some f) : (go sta sto s).fault = some f := by
  rcases go_cases sta sto s with ⟨_, _, h⟩ | ⟨_, _, _, h⟩ | ⟨_, h⟩ | ⟨_, _, h⟩ | h | h <;> rw [h]
  · exact hs
  · exact hs
  · exact goWait_keeps_fault sta sto hs
  · exact hs
  · exact raise_keeps_fault _ hs
  · exact raise_keeps_fault _ hs

theorem writeCr_keeps_fault (int ea sta sto en ie : Bool) (hs : s.fault = some f) :
    (writeCr int ea sta sto en ie s).fault = some f := by
  rcases writeCr_cases int ea sta sto en ie s with ⟨_, _, h⟩ | ⟨_, _, h⟩ | ⟨_, _, h⟩ | ⟨_, _, h⟩ <;> rw [h]
  · exact hs
  · exact (disable_fault _).trans hs
  · exact hs
  · exact go_keeps_fault sta sto hs

theorem exec_keeps_fault {i : Instr} (hs : s.fault = some f) (h : exec i s = .next t) : t.fault = some f := by
  cases hi : isCommand i with
  | false =>
    obtain ⟨_, _, _, _, _, _, rfl⟩ := exec_plain_form hi h
    exact hs
  | true =>
    obtain ⟨int, ea, sta, sto, en, ie, hexec⟩ := exec_command hi
    obtain rfl := Host.Outcome.next.inj ((hexec s).symm.trans h)
    exact writeCr_keeps_fault int ea sta sto en ie hs

/-- A sequencer step neither clears a fault nor records one. -/
theorem seqStep_fault {a : Answer} (h : seqStep a s = some t) : t.fault = s.fault := by
  obtain ⟨-, -, -, -, -, -, -, hfault, -⟩ := sequencerStepKeepsTheRest a s t h
  exact hfault

/-- A step of the machine, a reset included, keeps the fault that is recorded (R263; assumption 7). -/
theorem step_keeps_fault (hs : s.fault = some f) (h : step s = .next t) : t.fault = some f :=
  step_keeps (P := fun u => u.fault = some f) (fun _ _ _ => exec_keeps_fault)
    (fun _ _ _ hu hv => (seqStep_fault hv).trans hu) (fun u hu => (resetBlock_fault u).trans hu)
    (fun g _ => raise_keeps_fault g) (fun _ _ _ _ hu => hu) hs h

end

/-- Settles O48: the recorded fault is kept by `step_keeps_fault`, and accesses are performed in every state. -/
theorem faultIsNeverCleared : Obligations.FaultIsNeverCleared := by
  intro s hs
  obtain ⟨f, hf⟩ := Option.ne_none_iff_exists'.1 hs
  refine ⟨fun t h => ?_, fun i => everyAccessIsPerformed i s⟩
  rw [step_keeps_fault hf h]
  exact Option.some_ne_none f

/-! ## Driver calls outside their domain -/

/-- A call outside its domain performs none of its accesses and is the model fault of R262. -/
theorem step_call_outside_domain {s : State} {ts : List Turn} {rest : List HostOp} {c : DriverCall} (h : HostNext s ts)
    (ho : s.host = .call c :: rest) (hs : Safe s) (hc : callWellFormed c = false) :
    step s = .next { s with host := rest, turns := ts, result := none, fault := some .driverPrecondition } := by
  have hsafe : Safe { s with host := rest, turns := ts, result := none } := hs
  simp [step_of_hostNext_cons h ho, hostOp, callDriver, hc, raise_of_safe hsafe]

/-- Settles O58: each alternative denies a bound of `callWellFormed`, so that `step_call_outside_domain` gives the step. -/
theorem driverCallOutsideDomainIsFault : Obligations.DriverCallOutsideDomainIsFault := by
  intro s ts rest c h ho hs hc
  refine step_call_outside_domain h ho hs ?_
  rcases hc with ⟨cpu, bus, rfl, hout⟩ | ⟨a, d, rfl, ha⟩
  · rw [Bool.eq_false_iff, Ne, callWellFormed_initialise_iff, divisor]
    omega
  · exact decide_eq_false (Nat.not_lt.2 ha)

end Sys2Proof.Machine
end

section
/-! PROOF. What a turn does, by the agent that moves: the host at a container (30 R80; 40 R100), a reset (70 R290), and,
whichever it is, a fault recorded before stays the one that is shown (assumption 7). Then the accesses at the reserved
offsets (40 R109, R110). -/

namespace Sys2Proof.Machine

/-! ## A recorded fault -/

/-- Settles O49: every operation of a step keeps the recorded fault, `raise` among them (`step_keeps_fault`). -/
theorem firstFaultIsKept : Obligations.FirstFaultIsKept := fun _ _ _ => step_keeps_fault

/-! ## The host at a container -/

/-- A container holds a 12-bit word exactly when its value is below 4096. -/
theorem wordWellFormed_iff (w : HostWord) : wordWellFormed w = true ↔ w.toNat < 4096 := by
  have hhigh : (w.extractLsb' 12 4).toNat = w.toNat / 4096 := by
    have hw : w.toNat < 65536 := w.isLt
    rw [BitVec.extractLsb'_toNat, Nat.shiftRight_eq_div_pow]
    omega
  rw [wordWellFormed, beq_iff_eq, ← BitVec.toNat_inj, hhigh]
  simp

/-- A wider container decodes to nothing, and the error names it. -/
theorem decode_wide {w : HostWord} (h : 4096 ≤ w.toNat) : decode w = .error (.notAHostAccessWord w) := by
  have hwf : ¬ wordWellFormed w = true := by
    rw [wordWellFormed_iff]
    omega
  exact if_neg hwf

/-- Settles O5: the container does not decode, and such an access is refused. -/
theorem widerContainersAreRefused : Obligations.WiderContainersAreRefused := by
  intro s ts w rest h ho hw
  rw [step_of_hostNext_cons h ho]
  exact hostOp_access_refused (decode_wide hw) _

/-- Settles O6: the operation at the head of the host's list is the access, and a word that decodes is its meaning. -/
theorem stepRunsTheDecodedInstruction : Obligations.StepRunsTheDecodedInstruction := by
  intro s ts w i rest h ho hi
  rw [step_of_hostNext_cons h ho]
  exact hostOp_access hi _

/-! ## A reset turn -/

/-- What a reset leaves (R290): the stated values, an unspecified DR and, of an owner, a `Release`. -/
theorem resetBlock_eq (s : State) :
    resetBlock s = { s with
      crInt := false, crEa := false, crSta := false, crSto := false, crWc := false, crEn := false, crIe := false
      status := 0x1F#5, ps := 0#2, brr := 0x00#8, dr := nextFree s, draws := s.draws + 1, phase := .off
      trace := if owns s then s.trace ++ [.release] else s.trace } := by
  rw [resetBlock, releaseIfOwner_eq]
  rfl

/-- At a reset turn the step of the machine is the reset of the block. -/
theorem step_of_rst {s : State} {ts : List Turn} (h : s.turns = .rst :: ts) :
    step s = .next (resetBlock { s with turns := ts }) := by
  simp [step, h]

/-- CR and SR read after a reset as after power-up (R36). -/
theorem registers_resetBlock (s : State) : readCr (resetBlock s) = 0x00#8 ∧ readSr (resetBlock s) = 0xF8#8 := by
  simp [readCr, readSr, crByte]

/-- Settles O8: the state is `resetBlock_eq`; with EN = 0 there is no request, and in `Off` no line is driven. -/
theorem resetTurnResetsTheBlock : Obligations.ResetTurnResetsTheBlock := by
  intro s ts hts
  obtain ⟨hcr, hsr⟩ := registers_resetBlock { s with turns := ts }
  obtain ⟨hsda, hscl⟩ := drives_released (s := resetBlock { s with turns := ts }) (.inl rfl)
  exact ⟨_, step_of_rst hts, resetBlock_eq _, hcr, hsr, irq_of_disabled rfl, hsda, hscl⟩

/-! ## The reserved offsets -/

/-- Settles O14: the four reads return a drawn byte, and the four writes are `writeReserved`. -/
theorem reservedOffsetsReadFreeAndIgnoreWrites : Obligations.ReservedOffsetsReadFreeAndIgnoreWrites := by
  refine ⟨fun s i hi => ?_, fun s v i hi => ?_⟩
  all_goals
    simp only [List.mem_cons, List.not_mem_nil, or_false] at hi
    rcases hi with rfl | rfl | rfl | rfl
    all_goals rfl

end Sys2Proof.Machine
end
